-- ==== Sys2Proof/Word.lean ====
section
/-! DEFINITION. The word types of MBRTU-CORE (00_scope.md R13, R14): every number is unsigned. -/

namespace Sys2Proof

/-- `u8`, one character of the line or one frame byte (R14). -/
abbrev Byte := BitVec 8

/-- `u16`, a register value, a register address or a CRC (R14). -/
abbrev U16 := BitVec 16

/-- One word of the host bus, 32 bits (R201, R203). -/
abbrev Word := BitVec 32

end Sys2Proof
end

