-- ==== Sys2Proof/Config.lean ====
section
/-! DEFINITION. The implementation parameters of 00_scope.md R12, the open parameters of
92_eei_decisions.md, and the free values of 93_implementation_defined.md U1. -/

namespace Sys2Proof.Config

/-- `FRAME_MAX`: the largest frame stored or built (R12). -/
@[simp, reducible] def frameMax : Nat := 256

/-- `REQ_MIN`: the shortest request parseSlaveRequest accepts (R12). -/
@[simp, reducible] def reqMin : Nat := 8

/-- `ANS_MIN`: the shortest answer parseAnswer accepts (R12). -/
@[simp, reducible] def ansMin : Nat := 7

/-- `READ_COUNT_MAX`: registers of one read (R12, D26). -/
@[simp, reducible] def readCountMax : Nat := 125

/-- `WRITE_COUNT_MAX`: registers of one write (R12, D26). -/
@[simp, reducible] def writeCountMax : Nat := 123

/-- `VR_WORDS`: words of the value memory (R12, D15). -/
@[simp, reducible] def vrWords : Nat := 512

/-- `HVAL_WORDS`: words of the host value buffer (R12, D41). -/
@[simp, reducible] def hvalWords : Nat := 128

/-- `WQ_DEPTH`: entries of the write queue (R12, D16). -/
@[simp, reducible] def wqDepth : Nat := 8

/-- The largest value of `rx_len` (R132). -/
@[simp, reducible] def rxLenMax : Nat := 511

/-- The largest value of `rx_gap` (R132). -/
@[simp, reducible] def rxGapMax : Nat := 255

/-- The millisecond counters saturate at 2^32 − 1 (R131, R141, R142, D42). -/
@[simp, reducible] def timerMax : Nat := 4294967295

/-- Bit times of one character: start bit, 8 data bits, stop bit (R12, R561). -/
@[simp, reducible] def charBits : Nat := 10

/-- The zone-mode mask 0x2F (R12, R666). -/
@[simp, reducible] def zoneMask : U16 := 0x002F#16

/-- The hot-water mask 0x50 (R12, R666). -/
@[simp, reducible] def hotMask : U16 := 0x0050#16

/-- `TICK_PHASE`: the phase of `tick_bit` against `tick_ms` after reset, in units of 1/48000 s,
0..4. An open parameter (R12, R19, 93 U2): it has no value here. -/
opaque tickPhase : Fin 5

/-- `CLK_HZ`: the system clock. An open parameter that no rule reads (R10, R12, 93 U3). -/
opaque clkHz : Nat

/-- The byte HBUF[i] holds after reset number `epoch`, until it is written (R136, 93 U1). -/
opaque hbufFree (epoch i : Nat) : Byte

/-- The value HVAL[i] holds after reset number `epoch`, until it is written (R137, 93 U1). -/
opaque hvalFree (epoch i : Nat) : U16

/-- The byte SNOOP_BUF[i] holds after reset number `epoch`, until it is written (R138, 93 U1). -/
opaque snoopFree (epoch i : Nat) : Byte

/-- The VALUE field of VR[i] while VALID = 0, after clearing number `epoch` (R140, 93 U1). -/
opaque vrFree (epoch i : Nat) : U16

end Sys2Proof.Config
end

