-- ==== Sys2Proof/Syntax.lean ====
section
/-! DEFINITION. The instructions of spec/opcode_table.json, one constructor a row, with the operand
and result types they use. -/

namespace Sys2Proof

/-- A mode-register zone (R12 `N_ZONES` = 2). -/
inductive Zone where
  | z0
  | z1
deriving DecidableEq, Repr

/-- The sub-field operand `s` of MODE.REQ (R722): 0 zone mode, 1 hot water. -/
inductive SubField where
  | zoneMode
  | hotWater
deriving DecidableEq, Repr

/-- What a read transaction is for (R142, R600). -/
inductive ReadPurpose where
  /-- MODE_READ: step 0 of a mode sequence (R665). -/
  | modeRead
  /-- PART_READ(p, base): one partition of the read cycle (R681). -/
  | partRead (p : Fin 8) (base : BitVec 9)
deriving DecidableEq, Repr

/-- What a write transaction is for (R142, R600). -/
inductive WritePurpose where
  /-- MODE_WRITE: a write step of a mode sequence (R668). -/
  | modeWrite
  /-- DRAIN_WRITE: the head of the write queue (R676). -/
  | drainWrite
deriving DecidableEq, Repr

/-- The instructions: the host commands (R302), the wire frames (R310–R313) and the two operations
of the transaction sequencer (R610, R615). -/
inductive Instr where
  /-- NOP (R700). -/
  | nop
  /-- CRC.INIT (R701). -/
  | crcInit
  /-- CRC.BYTE b (R702). -/
  | crcByte (b : Byte)
  /-- CRC.BUF L (R703). -/
  | crcBuf (l : BitVec 9)
  /-- BLD.READ L (R710). -/
  | bldRead (l : BitVec 9)
  /-- BLD.WRITE L (R711). -/
  | bldWrite (l : BitVec 9)
  /-- BLD.ACK L (R712). -/
  | bldAck (l : BitVec 9)
  /-- PRS.REQ (R715). -/
  | prsReq
  /-- PRS.ANS L (R716). -/
  | prsAns (l : BitVec 9)
  /-- WQ.PUSH L (R721). -/
  | wqPush (l : BitVec 9)
  /-- MODE.REQ z, s, code (R722). -/
  | modeReq (z : Zone) (sub : SubField) (code : Byte)
  /-- READ_REQUEST on the wire (R310). `tail` is what follows the CRC: `[0x00]` in the block's own
  form, `[]` in the foreign master's, and any bytes up to the frame bound parse (R504). -/
  | readRequest (addr : Byte) (start count : U16) (tail : List Byte)
  /-- READ_ANSWER on the wire (R311). -/
  | readAnswer (addr : Byte) (vals : List U16)
  /-- WRITE_REQUEST on the wire (R312), with or without the trailing 0x00 (R505). -/
  | writeRequest (addr : Byte) (start : U16) (vals : List U16) (pad : Bool)
  /-- WRITE_ACK on the wire (R313). -/
  | writeAck (addr : Byte) (start : U16) (n : Byte)
  /-- masterReadAnalog(start, count), for its caller's purpose (R610). -/
  | masterReadAnalog (start count : U16) (purpose : ReadPurpose)
  /-- masterWriteAnalog(start, vals), for its caller's purpose (R615). -/
  | masterWriteAnalog (start : U16) (vals : List U16) (purpose : WritePurpose)
deriving DecidableEq, Repr

/-- Frame and transaction error codes FERR (R801). -/
inductive Ferr where
  | ok
  | feLen
  | feAddr
  | feFunc
  | feBcount
  | feTotlen
  | feCrc
  | piBcount
  | feUart
  | ackMismatch
  | teTimeout
deriving DecidableEq, Repr

/-- Host command error codes CERR (R802). -/
inductive Cerr where
  | ok
  | illegalOp
  | badRange
  | wqFull
deriving DecidableEq, Repr

/-- What parseSlaveRequest returns on success (R500). -/
inductive ParsedRequest where
  | readIntent (addr : Byte) (start count : U16)
  | writeIntent (addr : Byte) (start : U16) (vals : List U16)
deriving DecidableEq, Repr

/-- Which of the decoder's three functions a received frame is read by (42_frame_decoder.md): the
same bytes can be a request and an answer, so a frame has no meaning without it. -/
inductive FrameRole where
  /-- An observed frame, read as a request (R501, R558). -/
  | request
  /-- The frame that answers a read transaction (R510, R605). -/
  | answer
  /-- The frame that answers a write transaction (R515, R605). -/
  | ack
deriving DecidableEq, Repr

end Sys2Proof
end

