-- ==== Sys2Proof/Machine/Bytes.lean ====
section
/-! DEFINITION. Byte order and bit fields (00_scope.md R14, 20_memory.md R206, 30_encoding.md R316),
and the two small helpers the byte-list functions share. -/

namespace Sys2Proof.Machine

/-- `hi(v) = (v >> 8) & 0xFF` (R14). -/
def hi (v : U16) : Byte := v.extractLsb' 8 8

/-- `lo(v) = v & 0xFF` (R14). -/
def lo (v : U16) : Byte := v.extractLsb' 0 8

/-- `be16(a, b) = (a << 8) | b`: the high byte first (R14). -/
def be16 (a b : Byte) : U16 := a ++ b

/-- `le16(a, b) = a | (b << 8)`: the low byte first (R14). -/
def le16 (a b : Byte) : U16 := b ++ a

/-- `l[i]` (R15). No rule reads past the end of a list (R502). -/
def byteAt (l : List Byte) (i : Nat) : Byte := l.getD i 0

/-- Register values as they stand in data: each high byte, then low byte (R206, D4). -/
def valueBytes : List U16 → List Byte
  | [] => []
  | v :: vs => hi v :: lo v :: valueBytes vs

/-- The first `n` register values of data bytes, each from a high byte and a low byte (R501, R510). -/
def valuesOf : Nat → List Byte → List U16
  | 0, _ => []
  | n + 1, a :: b :: rest => be16 a b :: valuesOf n rest
  | _ + 1, _ => []

/-- The number of register `i` of a range from `start` on: `(start + i) mod 65536` (R409, R506). -/
def registerAt (start : U16) (i : Nat) : U16 := start + BitVec.ofNat 16 i

/-- The ordered register→value map of values from register `start` on: the first value belongs to
`start`, each later one to the next register, modulo 65536 (R500, R506, R511, R610). -/
def registerValues (start : U16) (vals : List U16) : List (U16 × U16) :=
  vals.zipIdx.map (fun v => (registerAt start v.2, v.1))

/-- `settle a k` is `k a`. It is written so that Lean's kernel computes `a` to a numeral before it
goes on, which keeps the evaluation of long byte lists shallow; it has no other meaning. -/
def settle {w : Nat} {α : Type} (a : BitVec w) (k : BitVec w → α) : α :=
  match a.toNat with
  | 0 => k (BitVec.ofNat w 0)
  | n + 1 => k (BitVec.ofNat w (n + 1))

end Sys2Proof.Machine
end

