-- ==== Sys2Proof/Machine/State.lean ====
section
/-! DEFINITION. The state of MBRTU-CORE (10_state.md), the events that reach it (00_scope.md R18),
the reasons a step can stop, and the state after reset (R170). -/

namespace Sys2Proof.Machine

/-- Reasons the machine stops with a fault: none. "A model must have no fault state" (93 U16; R800,
R805). Safe: the block it models has no such state either. -/
inductive Fault
deriving DecidableEq, Repr

/-- Reasons a step is refused. -/
inductive Refusal where
  /-- Raised by `exec`'s arm of an instruction that has no meaning yet. Safe: the machine stops. -/
  | notModelled (mnemonic : String)
deriving DecidableEq, Repr

/-! ## Names the state uses -/

/-- `arb` (R130). -/
inductive Arb where
  | init
  | slave
  | master
deriving DecidableEq, Repr

/-- `seq`, the sequencer state (R160). -/
inductive Seq where
  | off
  | listen
  | guard
  | tx
  | wait
  | pause
deriving DecidableEq, Repr

/-- `unit`, the unit of a turn (R160, R650). -/
inductive TurnUnit where
  | mode0
  | mode1
  | drain
  | read
deriving DecidableEq, Repr

/-- `rx_owner`: who receives the open frame when it ends (R132). -/
inductive RxOwner where
  | snoop
  | answer
  | discard
deriving DecidableEq, Repr

/-- The reason of a stop request, and `stop_pending` when it waits (R142, R575). -/
inductive StopReason where
  | stop
  | reinit
deriving DecidableEq, Repr

/-- `last_abort`, STATUS.LAST_ABORT (R104, R142). -/
inductive AbortReason where
  | none
  | activity
  | stop
  | reinit
deriving DecidableEq, Repr

/-- KIND of PRES0 and SNOOP_RES0 (R113). -/
inductive ResultKind where
  | none
  | readIntent
  | writeIntent
  | answer
deriving DecidableEq, Repr

/-- The interrupt flags, IRQ_STATUS bits 0 to 8 (R820). -/
inductive IrqFlag where
  | cycleDone
  | txnFail
  | turnAbort
  | snoopOk
  | snoopErr
  | stateChg
  | modeDone
  | wqEmpty
  | cmdErr
deriving DecidableEq, Repr

/-- The events to which the block reacts (R18). -/
inductive Event where
  | tickMs
  | tickBit
  | rxStart
  | rxByte (b : Byte) (ferr : Bool)
  | busWrite (a : BitVec 14) (v : Word)
  | busRead (a : BitVec 14)
  | reset
deriving DecidableEq, Repr

/-- What the block gives to its environment: a transmitted byte (R18), or the data of a bus read
(R203). The levels `irq`, `de` and TX are views of the state. -/
inductive Output where
  | txByte (b : Byte)
  | busData (v : Word)
deriving DecidableEq, Repr

/-- Words of one memory, by word index: indexes strictly rising, and only words written since the
contents were last unspecified. -/
abbrev Memory (α : Type) : Type := List (Nat × α)

/-! ## Groups of fields -/

/-- A parse result in the layout of R113, for PRES0/PRES1 and SNOOP_RES0/SNOOP_RES1. -/
structure ParseResult where
  kind : ResultKind
  addr : Byte
  func : Byte
  start : U16
  count : U16
deriving DecidableEq, Repr

/-- The registers and buffers of the host command unit (R108–R113, R136, R137). -/
structure HostPort where
  /-- CMD: the last word written (R108). -/
  cmd : Word
  /-- CMD_STATUS.CERR (R109). -/
  cerr : Cerr
  /-- CMD_STATUS.FERR (R109). -/
  ferr : Ferr
  /-- ARG.START (R110). -/
  argStart : U16
  /-- ARG.ADDR (R110). -/
  argAddr : Byte
  /-- ARG.FUNC (R110). -/
  argFunc : Byte
  /-- HLEN (R111). -/
  hlen : BitVec 9
  /-- CRC_ACC (R112). -/
  crcAcc : U16
  /-- PRES0 and PRES1 (R113). -/
  pres : ParseResult
  /-- HBUF (R136). -/
  hbuf : List Host.Cell
  /-- HVAL (R137). -/
  hval : Memory U16
deriving DecidableEq, Repr

/-- One entry of the partition table, as written (R135). -/
structure Partition where
  /-- PT_RANGE.START. -/
  start : U16
  /-- PT_RANGE.COUNT. -/
  count : BitVec 7
  /-- PT_BASE.BASE. -/
  base : BitVec 9
  /-- PT_BASE.EN, the bit written. -/
  en : Bool
deriving DecidableEq, Repr

/-- The configuration registers (R107, R117–R125, R135). -/
structure Settings where
  /-- SLAVE_ADDR.ADDR (R107). -/
  slaveAddr : Byte
  /-- MODE_CFG0.MODE_REG and MODE_CFG0.DC_REG (R117). -/
  modeReg0 : U16
  dcReg0 : U16
  /-- MODE_CFG1.MODE_REG and MODE_CFG1.DC_REG (R117). -/
  modeReg1 : U16
  dcReg1 : U16
  /-- MODE_EN bits 0 and 1 (R117). -/
  modeEn0 : Bool
  modeEn1 : Bool
  /-- T_QUIET_MS (R118). -/
  tQuiet : U16
  /-- T_TXN_MS (R119). -/
  tTxn : U16
  /-- T_DRAIN_MS (R120). -/
  tDrain : U16
  /-- T_PAUSE_MS (R121). -/
  tPause : U16
  /-- T_IDLE_MS (R122). -/
  tIdle : U16
  /-- T_LISTEN_MS (R123). -/
  tListen : U16
  /-- CYCLE_PERIOD_S (R124). -/
  cyclePeriod : U16
  /-- T_GAP_BITS (R125). -/
  tGap : Byte
  /-- The partition table (R135). -/
  pt : Vector Partition 8
deriving DecidableEq, Repr

/-- The statistics counters, wrapping modulo 2^32 (R126). -/
structure Counters where
  frames : Word
  snoopErr : Word
  txnOk : Word
  txnFail : Word
  cycles : Word
  aborts : Word
deriving DecidableEq, Repr

/-- The description of the last observed frame (R127, R128, R138). -/
structure SnoopRegs where
  /-- SNOOP_LEN.LEN. -/
  len : BitVec 9
  /-- SNOOP_LEN.OVF. -/
  ovf : Bool
  /-- SNOOP_LEN.UERR. -/
  uerr : Bool
  /-- SNOOP_LEN.FERR. -/
  ferr : Ferr
  /-- SNOOP_RES0 and SNOOP_RES1. -/
  res : ParseResult
  /-- SNOOP_BUF. -/
  buf : List Host.Cell
deriving DecidableEq, Repr

/-- The receiver (R132). -/
structure Receiver where
  /-- `rx_active`. -/
  active : Bool
  /-- `rx_in_frame`. -/
  inFrame : Bool
  /-- `rx_len`. -/
  len : Nat
  /-- `rx_gap`. -/
  gap : Nat
  /-- `rx_ferr`. -/
  ferr : Bool
  /-- `rx_owner`. -/
  owner : RxOwner
  /-- RXB: the open frame's first 256 bytes, oldest first. -/
  buf : List Byte
deriving DecidableEq, Repr

/-- The transmitter (R133). -/
structure Transmitter where
  /-- `de`. -/
  de : Bool
  /-- TXB[0 .. tx_len): its length is `tx_len`. -/
  buf : List Byte
  /-- `tx_bits`. -/
  bits : Nat
deriving DecidableEq, Repr

/-- One entry of the write queue (R134). -/
structure WqEntry where
  start : U16
  vals : List U16
deriving DecidableEq, Repr

/-- One mode-request sub-slot (R139). -/
structure SubSlot where
  pend : Bool
  code : Byte
  dirty : Bool
deriving DecidableEq, Repr

/-- A zone's two sub-slots (R139). -/
structure ZoneSlots where
  /-- `zpend`, `zcode`, `zdirty`. -/
  zone : SubSlot
  /-- `hpend`, `hcode`, `hdirty`. -/
  hot : SubSlot
deriving DecidableEq, Repr

/-- The running mode sequence's latches (R139). -/
structure ModeRun where
  /-- `lat_z`. -/
  latZ : Bool
  /-- `lat_h`. -/
  latH : Bool
  /-- `lat_zcode`. -/
  zcode : Byte
  /-- `lat_hcode`. -/
  hcode : Byte
  /-- `mode_val`. -/
  val : U16
  /-- `mode_af`. -/
  af : Bool
  /-- `mode_reg`. -/
  modeReg : U16
  /-- `dc_reg`. -/
  dcReg : U16
deriving DecidableEq, Repr

/-- The read cycle (R141). -/
structure ReadCycle where
  /-- `cyc_active`. -/
  active : Bool
  /-- `done_mask`. -/
  doneMask : BitVec 8
  /-- `cycle_valid`. -/
  valid : Bool
  /-- `since_complete_ms`. -/
  sinceMs : Nat
  /-- `refresh_req`. -/
  refreshReq : Bool
deriving DecidableEq, Repr

/-- `txn.kind` with what belongs to it: count and purpose of a read, values and purpose of a write
(R142, R600). -/
inductive TxnOp where
  | read (count : U16) (purpose : ReadPurpose)
  | write (vals : List U16) (purpose : WritePurpose)
deriving DecidableEq, Repr

/-- `txn`, the transaction in progress (R142, R600). -/
structure Txn where
  addr : Byte
  start : U16
  op : TxnOp
deriving DecidableEq, Repr

/-! ## The state -/

/-- Everything the spec gives the machine, and the environment it reacts to. -/
structure State where
  /-- CTRL.EN (R103). -/
  en : Bool
  /-- IRQ_STATUS (R105). -/
  irqStatus : BitVec 9
  /-- IRQ_ENABLE (R106). -/
  irqEnable : BitVec 9
  /-- The host command unit (R108–R113, R136, R137). -/
  host : HostPort
  /-- The configuration registers (R107, R117–R125, R135). -/
  cfg : Settings
  /-- The counters (R126). -/
  cnt : Counters
  /-- The last observed frame (R127, R128, R138). -/
  snoop : SnoopRegs
  /-- VR: the values of the words whose VALID bit is 1 (R140). -/
  vr : Memory U16
  /-- `arb` (R130). -/
  arb : Arb
  /-- `quiet_ms` (R131). -/
  quietMs : Nat
  /-- The receiver (R132). -/
  rx : Receiver
  /-- The transmitter (R133). -/
  tx : Transmitter
  /-- `wq` (R134). -/
  wq : List WqEntry
  /-- The mode-request sub-slots of zones 0 and 1 (R139). -/
  slots0 : ZoneSlots
  slots1 : ZoneSlots
  /-- The running mode sequence (R139). -/
  run : ModeRun
  /-- The read cycle (R141). -/
  cyc : ReadCycle
  /-- `seq` (R160). -/
  seq : Seq
  /-- `unit` (R160). -/
  unit : TurnUnit
  /-- `step` (R160). -/
  step : Nat
  /-- `listen_ms`, `drain_ms`, `pause_ms`, `txn_ms` (R142). -/
  listenMs : Nat
  drainMs : Nat
  pauseMs : Nat
  txnMs : Nat
  /-- `txn` (R142, R600). -/
  txn : Option Txn
  /-- `ack_exp` (R142, R456). -/
  ackExp : List Byte
  /-- `ans_seen` (R142). -/
  ansSeen : Bool
  /-- `stop_pending` (R142). -/
  stopPending : Option StopReason
  /-- `txn_discard` (R142). -/
  txnDiscard : Bool
  /-- `last_err` (R142). -/
  lastErr : Ferr
  /-- `last_abort` (R142). -/
  lastAbort : AbortReason
  /-- The model's: environment events not yet handled, next first (log 1). -/
  script : List Event
  /-- The model's: the outputs given so far, oldest first (log 10). -/
  outLog : List Output
  /-- The time source: `tick_ms` and `tick_bit` events since reset (R19, log 2). -/
  msTicks : Nat
  bitTicks : Nat
  /-- The model's: which draw HBUF, HVAL and SNOOP_BUF hold where not written (log 3). -/
  memEpoch : Nat
  /-- The model's: which draw VR's VALUE fields hold while VALID = 0 (log 4). -/
  vrEpoch : Nat
deriving DecidableEq, Repr

/-! ## Reset values (R170) -/

/-- A parse result with every field 0 (R113, R170). -/
def ParseResult.zero : ParseResult :=
  { kind := .none, addr := 0#8, func := 0#8, start := 0#16, count := 0#16 }

def HostPort.reset : HostPort :=
  { cmd := 0#32, cerr := .ok, ferr := .ok, argStart := 0#16, argAddr := 0#8, argFunc := 0#8,
    hlen := 0#9, crcAcc := 0xFFFF#16, pres := ParseResult.zero, hbuf := [], hval := [] }

def Partition.reset : Partition := { start := 0#16, count := 0#7, base := 0#9, en := false }

def Settings.reset : Settings :=
  { slaveAddr := 0x0A#8,
    modeReg0 := 0#16, dcReg0 := 0#16, modeReg1 := 0#16, dcReg1 := 0#16,
    modeEn0 := false, modeEn1 := false,
    tQuiet := 5000#16, tTxn := 2500#16, tDrain := 2000#16, tPause := 500#16, tIdle := 100#16,
    tListen := 500#16, cyclePeriod := 60#16, tGap := 35#8,
    pt := Vector.replicate 8 Partition.reset }

def Counters.reset : Counters :=
  { frames := 0#32, snoopErr := 0#32, txnOk := 0#32, txnFail := 0#32, cycles := 0#32,
    aborts := 0#32 }

def SnoopRegs.reset : SnoopRegs :=
  { len := 0#9, ovf := false, uerr := false, ferr := .ok, res := ParseResult.zero, buf := [] }

def Receiver.reset : Receiver :=
  { active := false, inFrame := false, len := 0, gap := 0, ferr := false, owner := .snoop,
    buf := [] }

def Transmitter.reset : Transmitter := { de := false, buf := [], bits := 0 }

def SubSlot.reset : SubSlot := { pend := false, code := 0#8, dirty := false }

def ZoneSlots.reset : ZoneSlots := { zone := SubSlot.reset, hot := SubSlot.reset }

def ModeRun.reset : ModeRun :=
  { latZ := false, latH := false, zcode := 0#8, hcode := 0#8, val := 0#16, af := false,
    modeReg := 0#16, dcReg := 0#16 }

def ReadCycle.reset : ReadCycle :=
  { active := false, doneMask := 0#8, valid := false, sinceMs := 0, refreshReq := false }

/-- The machine right after reset (R170), with no environment event waiting. -/
def State.reset : State :=
  { en := false, irqStatus := 0#9, irqEnable := 0#9,
    host := HostPort.reset, cfg := Settings.reset, cnt := Counters.reset,
    snoop := SnoopRegs.reset, vr := [],
    arb := .init, quietMs := 0, rx := Receiver.reset, tx := Transmitter.reset, wq := [],
    slots0 := ZoneSlots.reset, slots1 := ZoneSlots.reset, run := ModeRun.reset,
    cyc := ReadCycle.reset, seq := .off, unit := .mode0, step := 0,
    listenMs := 0, drainMs := 0, pauseMs := 0, txnMs := 0,
    txn := none, ackExp := List.replicate 8 0#8, ansSeen := false,
    stopPending := none, txnDiscard := false, lastErr := .ok, lastAbort := .none,
    script := [], outLog := [], msTicks := 0, bitTicks := 0, memEpoch := 0, vrEpoch := 0 }

end Sys2Proof.Machine
end

