-- ==== Sys2Proof/Machine/Ops.lean ====
section
/-! DEFINITION. The named operations over the state: the memories, the interrupt flags (the block's
whole counterpart of taking an exception and returning from one), command completion, timers, and
the small writes the handlers share. -/

namespace Sys2Proof.Machine

/-! ## Memories -/

/-- The word written at index `i`, if any. -/
def memRead {α : Type} : Memory α → Nat → Option α
  | [], _ => none
  | (k, v) :: m, i => if k = i then some v else memRead m i

/-- Write word `i`, keeping the indexes strictly rising. -/
def memWrite {α : Type} : Memory α → Nat → α → Memory α
  | [], i, v => [(i, v)]
  | (k, w) :: m, i, v =>
    if i < k then (i, v) :: (k, w) :: m
    else if i = k then (i, v) :: m
    else (k, w) :: memWrite m i v

/-- Write a list of words at `i`, `i + 1`, … -/
def memWriteAll {α : Type} (m : Memory α) (i : Nat) : List α → Memory α
  | [] => m
  | v :: vs => memWriteAll (memWrite m i v) (i + 1) vs

/-- The canonical form: indexes strictly rising. -/
def Memory.wf {α : Type} : Memory α → Bool
  | [] => true
  | [_] => true
  | (k, _) :: (k', w) :: m => decide (k < k') && Memory.wf ((k', w) :: m)

/-- Every index is below `n`, the memory's size. -/
def memBelow {α : Type} (n : Nat) (m : Memory α) : Bool := m.all (fun c => decide (c.1 < n))

/-- HBUF[i] (R136); a word not written since reset holds a free value (93 U1). -/
def hbufAt (s : State) (i : Nat) : Byte :=
  (memRead s.host.hbuf i).getD (Config.hbufFree s.memEpoch i)

/-- HVAL[i] (R137); a word not written since reset holds a free value (93 U1). -/
def hvalAt (s : State) (i : Nat) : U16 :=
  (memRead s.host.hval i).getD (Config.hvalFree s.memEpoch i)

/-- SNOOP_BUF[i] (R138); a word not written since reset holds a free value (93 U1). -/
def snoopAt (s : State) (i : Nat) : Byte :=
  (memRead s.snoop.buf i).getD (Config.snoopFree s.memEpoch i)

/-- VR[i].VALID (R140): a word the block has written since reset or INVALIDATE. -/
def vrValid (s : State) (i : Nat) : Bool := (memRead s.vr i).isSome

/-- VR[i].VALUE (R140): a free value while VALID = 0. -/
def vrValue (s : State) (i : Nat) : U16 :=
  (memRead s.vr i).getD (Config.vrFree s.vrEpoch i)

/-- `HBUF[0 .. len fr) <- fr; HLEN <- len fr`, as the build commands end (R710–R712). -/
def putFrame (fr : List Byte) (s : State) : State :=
  { s with
    host.hbuf := memWriteAll s.host.hbuf 0 fr
    host.hlen := BitVec.ofNat 9 fr.length }

/-- `HVAL[i] <- vs[i]` (R715, R716). -/
def putValues (vs : List U16) (s : State) : State :=
  { s with host.hval := memWriteAll s.host.hval 0 vs }

/-- `VR[base + i] <- {VALUE = vs[i], VALID = 1}` (R683). -/
def storeVr (base : Nat) (vs : List U16) (s : State) : State :=
  { s with vr := memWriteAll s.vr base vs }

/-! ## Interrupt flags -/

/-- The bit of a flag in IRQ_STATUS (R820). -/
def IrqFlag.bit : IrqFlag → Nat
  | .cycleDone => 0
  | .txnFail => 1
  | .turnAbort => 2
  | .snoopOk => 3
  | .snoopErr => 4
  | .stateChg => 5
  | .modeDone => 6
  | .wqEmpty => 7
  | .cmdErr => 8

/-- The flag's bit as a mask. -/
def IrqFlag.mask (f : IrqFlag) : BitVec 9 := 1#9 <<< f.bit

/-- `raise IRQ(F)`: the whole of "interrupt entry": the flag is set, nothing is saved, no mode and
no control flow changes (R800, R820, R822). -/
def raiseIrq (f : IrqFlag) (s : State) : State :=
  { s with irqStatus := s.irqStatus ||| f.mask }

/-- The host's acknowledgement, the whole of "return": each bit written 1 is cleared, each bit
written 0 is left (R102, R105, R823). -/
def ackIrq (v : Word) (s : State) : State :=
  { s with irqStatus := s.irqStatus &&& ~~~(v.extractLsb' 0 9) }

/-- A flag is set in IRQ_STATUS. -/
def irqSet (f : IrqFlag) (s : State) : Bool := s.irqStatus.getLsbD f.bit

/-! ## Command completion -/

/-- The start of every command: `CMD_STATUS.FERR <- 0` (R705). -/
def beginCommand (s : State) : State := { s with host.ferr := .ok }

/-- `finish(c)`: record CERR, and raise CMD_ERR when it is not OK (R705, R731). -/
def finish (c : Cerr) (s : State) : State :=
  let s1 := { s with host.cerr := c }
  if c = .ok then s1 else raiseIrq .cmdErr s1

/-! ## Arbiter, timers, counters, outputs -/

/-- `arb <- a`; a change of value raises STATE_CHG (R570). -/
def setArb (a : Arb) (s : State) : State :=
  if s.arb = a then s else raiseIrq .stateChg { s with arb := a }

/-- `sat(x + 1)`, with sat(x) = min(x, 2^32 − 1) (R580). -/
def satInc (n : Nat) : Nat := min (n + 1) Config.timerMax

/-- `n` as the kernel should carry it on, a numeral: `settleNat n k` is `k n` (see `settle`). -/
def settleNat {α : Type} (n : Nat) (k : Nat → α) : α :=
  match n with
  | 0 => k 0
  | m + 1 => k (m + 1)

/-- Give an output to the environment. -/
def emit (o : Output) (s : State) : State := { s with outLog := s.outLog ++ [o] }

/-- The sequencer outside any turn: `seq <- q; unit <- MODE0; step <- 0` (R556, R577, R653, R662). -/
def leaveTurn (q : Seq) (s : State) : State := { s with seq := q, unit := .mode0, step := 0 }

/-- The mode-request sub-slots of a zone (R139). -/
def slotsOf (z : Zone) (s : State) : ZoneSlots :=
  match z with
  | .z0 => s.slots0
  | .z1 => s.slots1

/-- Replace the mode-request sub-slots of a zone. -/
def setSlots (z : Zone) (sl : ZoneSlots) (s : State) : State :=
  match z with
  | .z0 => { s with slots0 := sl }
  | .z1 => { s with slots1 := sl }

end Sys2Proof.Machine
end

