-- ==== Sys2Proof/Machine/Operands.lean ====
section
/-! DEFINITION. The operand forms of the commands and of the sequencer (R304, R135, R139, R457): what
an instruction reads and from where. -/

namespace Sys2Proof.Machine

/-- `HBUF[0 .. n)` (R703, R715, R716). -/
def hbufBytes (n : Nat) (s : State) : List Byte := (List.range n).map (hbufAt s)

/-- `HVAL[0 .. n)` (R711, R721). -/
def hvalWords (n : Nat) (s : State) : List U16 := (List.range n).map (hvalAt s)

/-- The frame of PRS.REQ and PRS.ANS: `HBUF[0 .. HLEN)` (R502). -/
def hostFrame (s : State) : List Byte := hbufBytes s.host.hlen.toNat s

/-- A partition entry is effective: the EN bit written is 1, 1 ≤ COUNT ≤ 125 and BASE + COUNT ≤ 512
(R135). -/
def Partition.effective (p : Partition) : Bool :=
  p.en && decide (1 ≤ p.count.toNat) && decide (p.count.toNat ≤ Config.readCountMax) &&
    decide (p.base.toNat + p.count.toNat ≤ Config.vrWords)

/-- EFF_EN: bit p says partition p is effective (R129, R135). -/
def effEn (s : State) : BitVec 8 :=
  BitVec.ofBool (s.cfg.pt[7]).effective ++ BitVec.ofBool (s.cfg.pt[6]).effective ++
  BitVec.ofBool (s.cfg.pt[5]).effective ++ BitVec.ofBool (s.cfg.pt[4]).effective ++
  BitVec.ofBool (s.cfg.pt[3]).effective ++ BitVec.ofBool (s.cfg.pt[2]).effective ++
  BitVec.ofBool (s.cfg.pt[1]).effective ++ BitVec.ofBool (s.cfg.pt[0]).effective

/-- The index of the lowest 1 bit of an 8-bit mask, none for 0 (R681). -/
def lowestBit (m : BitVec 8) : Option (Fin 8) :=
  [0, 1, 2, 3, 4, 5, 6, 7].find? (fun p : Fin 8 => m.getLsbD p.val)

/-- MODE_CFG[z].MODE_REG (R117). -/
def modeRegOf (z : Zone) (s : State) : U16 :=
  match z with
  | .z0 => s.cfg.modeReg0
  | .z1 => s.cfg.modeReg1

/-- MODE_CFG[z].DC_REG (R117). -/
def dcRegOf (z : Zone) (s : State) : U16 :=
  match z with
  | .z0 => s.cfg.dcReg0
  | .z1 => s.cfg.dcReg1

/-- MODE_EN[z] (R117). -/
def modeEnOf (z : Zone) (s : State) : Bool :=
  match z with
  | .z0 => s.cfg.modeEn0
  | .z1 => s.cfg.modeEn1

/-- The zone has work: MODE_EN[z] = 1 and a sub-slot pending (R651). -/
def zoneReady (z : Zone) (s : State) : Bool :=
  modeEnOf z s && ((slotsOf z s).zone.pend || (slotsOf z s).hot.pend)

/-- The unit of a zone's mode sequence. -/
def unitOf : Zone → TurnUnit
  | .z0 => .mode0
  | .z1 => .mode1

end Sys2Proof.Machine
end

