-- ==== Sys2Proof/Machine/Flags.lean ====
section
/-! DEFINITION. The flags and status words as the host and the pins see them: every field's code and
place (R103–R129, R801, R802, R820, R821, R561). -/

namespace Sys2Proof.Machine

/-! ## Codes -/

/-- FERR numbers (R801). -/
def ferrCode : Ferr → BitVec 4
  | .ok => 0#4
  | .feLen => 1#4
  | .feAddr => 2#4
  | .feFunc => 3#4
  | .feBcount => 4#4
  | .feTotlen => 5#4
  | .feCrc => 6#4
  | .piBcount => 7#4
  | .feUart => 8#4
  | .ackMismatch => 9#4
  | .teTimeout => 10#4

/-- CERR numbers (R802). -/
def cerrCode : Cerr → BitVec 4
  | .ok => 0#4
  | .illegalOp => 1#4
  | .badRange => 2#4
  | .wqFull => 3#4

/-- STATUS.ARB_STATE (R104). -/
def Arb.code : Arb → BitVec 2
  | .init => 0#2
  | .slave => 1#2
  | .master => 2#2

/-- STATUS.SEQ_STATE (R104). -/
def Seq.code : Seq → BitVec 4
  | .off => 0#4
  | .listen => 1#4
  | .guard => 2#4
  | .tx => 3#4
  | .wait => 4#4
  | .pause => 5#4

/-- STATUS.UNIT (R104). -/
def TurnUnit.code : TurnUnit → BitVec 2
  | .mode0 => 0#2
  | .mode1 => 1#2
  | .drain => 2#2
  | .read => 3#2

/-- STATUS.LAST_ABORT (R104, R662). -/
def AbortReason.code : AbortReason → BitVec 2
  | .none => 0#2
  | .activity => 1#2
  | .stop => 2#2
  | .reinit => 3#2

/-- KIND (R113). -/
def ResultKind.code : ResultKind → BitVec 2
  | .none => 0#2
  | .readIntent => 1#2
  | .writeIntent => 2#2
  | .answer => 3#2

/-! ## Views of the sequencer -/

/-- A turn is in progress: SEQ_STATE ∈ {GUARD, TX, WAIT, PAUSE} (R104). -/
def inTurn (s : State) : Bool :=
  match s.seq with
  | .guard => true
  | .tx => true
  | .wait => true
  | .pause => true
  | .off => false
  | .listen => false

/-- A transaction is in flight: SEQ_STATE ∈ {TX, WAIT} (R104, R575). -/
def inTxn (s : State) : Bool :=
  match s.seq with
  | .tx => true
  | .wait => true
  | .off => false
  | .listen => false
  | .guard => false
  | .pause => false

/-- The sequencer waits with the receiver watched for activity: GUARD or PAUSE (R552, R554). -/
def watching (s : State) : Bool :=
  match s.seq with
  | .guard => true
  | .pause => true
  | .off => false
  | .listen => false
  | .tx => false
  | .wait => false

/-! ## Register views -/

/-- STATUS (R104). UNIT reads 0 outside a turn. -/
def statusWord (s : State) : Word :=
  0#7 ++ BitVec.ofNat 3 s.step ++ (if inTurn s then s.unit.code else 0#2) ++ s.seq.code ++
  BitVec.ofBool s.stopPending.isSome ++ BitVec.ofBool s.tx.de ++ s.lastAbort.code ++
  ferrCode s.lastErr ++ BitVec.ofBool s.cyc.valid ++ BitVec.ofBool s.rx.inFrame ++
  BitVec.ofBool s.cyc.refreshReq ++ BitVec.ofBool s.cyc.active ++ BitVec.ofBool (inTxn s) ++
  BitVec.ofBool (inTurn s) ++ s.arb.code

/-- CMD_STATUS (R109). -/
def cmdStatusWord (s : State) : Word := 0#24 ++ ferrCode s.host.ferr ++ cerrCode s.host.cerr

/-- ARG (R110). -/
def argWord (s : State) : Word := s.host.argFunc ++ s.host.argAddr ++ s.host.argStart

/-- PRES0 or SNOOP_RES0 (R113). -/
def ParseResult.word0 (r : ParseResult) : Word := 0#8 ++ r.func ++ r.addr ++ 0#6 ++ r.kind.code

/-- PRES1 or SNOOP_RES1 (R113). -/
def ParseResult.word1 (r : ParseResult) : Word := r.count ++ r.start

/-- WQ_STATUS (R114). -/
def wqStatusWord (s : State) : Word :=
  0#22 ++ BitVec.ofBool s.wq.isEmpty ++ BitVec.ofBool (s.wq.length == Config.wqDepth) ++ 0#4 ++
  BitVec.ofNat 4 s.wq.length

/-- MODE_STATUS (R115). -/
def modeStatusWord (s : State) : Word :=
  0#28 ++ BitVec.ofBool s.slots1.hot.pend ++ BitVec.ofBool s.slots1.zone.pend ++
  BitVec.ofBool s.slots0.hot.pend ++ BitVec.ofBool s.slots0.zone.pend

/-- MODE_SLOTS (R116). -/
def modeSlotsWord (s : State) : Word :=
  s.slots1.hot.code ++ s.slots1.zone.code ++ s.slots0.hot.code ++ s.slots0.zone.code

/-- MODE_EN (R117). -/
def modeEnWord (s : State) : Word :=
  0#30 ++ BitVec.ofBool s.cfg.modeEn1 ++ BitVec.ofBool s.cfg.modeEn0

/-- SNOOP_LEN (R127). -/
def snoopLenWord (s : State) : Word :=
  0#16 ++ ferrCode s.snoop.ferr ++ 0#1 ++ BitVec.ofBool s.snoop.uerr ++ BitVec.ofBool s.snoop.ovf ++
  s.snoop.len

/-- CYCLE_STATUS (R129). -/
def cycleStatusWord (s : State) : Word := 0#16 ++ effEn s ++ s.cyc.doneMask

/-- PT_RANGE[p] (R135). -/
def ptRangeWord (p : Fin 8) (s : State) : Word := 0#9 ++ (s.cfg.pt[p]).count ++ (s.cfg.pt[p]).start

/-- PT_BASE[p]; EN reads the effective value (R135). -/
def ptBaseWord (p : Fin 8) (s : State) : Word :=
  BitVec.ofBool (s.cfg.pt[p]).effective ++ 0#22 ++ (s.cfg.pt[p]).base

/-- VR[i] (R140). -/
def vrWord (i : Nat) (s : State) : Word := 0#15 ++ BitVec.ofBool (vrValid s i) ++ vrValue s i

/-! ## Outputs -/

/-- The level output `irq` (R106, R821). -/
def irqOut (s : State) : Bool := s.irqStatus &&& s.irqEnable != 0#9

/-- The DE output (R550). -/
def deOut (s : State) : Bool := s.tx.de

/-- The level of bit time `k` of a character: start bit 0, data bits least significant first, stop
bit 1 (R207, R561). -/
def charLevel (b : Byte) (k : Nat) : Bool :=
  if k = 0 then false else if k ≤ 8 then b.getLsbD (k - 1) else true

/-- The TX output: idle at 1 while `de` = 0, else the bit of the character being sent (R561). -/
def txLevel (s : State) : Bool :=
  if s.tx.de then
    let sent := Config.charBits * s.tx.buf.length - s.tx.bits
    charLevel (byteAt s.tx.buf (sent / Config.charBits)) (sent % Config.charBits)
  else true

end Sys2Proof.Machine
end

