-- ==== Sys2Proof/Machine/Crc.lean ====
section
/-! DEFINITION. The CRC-16 checksum generator (40_crc.md R400–R404). -/

namespace Sys2Proof.Machine

/-- One bit step: shift right, and XOR with 0xA001 when the bit shifted out was 1 (R401). -/
def crcBit (acc : U16) : U16 :=
  if acc.getLsbD 0 then (acc >>> 1) ^^^ 0xA001#16 else acc >>> 1

/-- `n` bit steps (R401 repeats 8 of them). -/
def crcBits : Nat → U16 → U16
  | 0, acc => acc
  | n + 1, acc => settle (crcBit acc) (crcBits n)

/-- `crc_step(acc, b)`: one byte (R401). -/
def crcStep (acc : U16) (b : Byte) : U16 := crcBits 8 (acc ^^^ b.setWidth 16)

/-- The byte steps of a list from a given accumulator, index 0 first (R402). -/
def crcFrom (acc : U16) : List Byte → U16
  | [] => acc
  | b :: l => settle (crcStep acc b) (fun a => crcFrom a l)

/-- The accumulator's initial value (R400). -/
def crcInitial : U16 := 0xFFFF#16

/-- `crc16(l)` (R402). -/
def crc16 (l : List Byte) : U16 := crcFrom crcInitial l

/-- The two checksum bytes that follow a frame's prefix, low byte first (R403). -/
def crcBytes (l : List Byte) : List Byte := settle (crc16 l) (fun c => [lo c, hi c])

/-- `T[i] = crc_step(0x0000, i)`, the table of the table-driven form (R404). -/
def crcTable (i : Byte) : U16 := crcStep 0#16 i

/-- One byte by the table: `(acc >> 8) ^ T[(acc ^ b) & 0xFF]` (R404). -/
def crcTableStep (acc : U16) (b : Byte) : U16 :=
  (acc >>> 8) ^^^ crcTable (lo acc ^^^ b)

/-- The checksum in its table-driven form (R404). -/
def crc16Table (l : List Byte) : U16 := l.foldl crcTableStep crcInitial

end Sys2Proof.Machine
end

