-- ==== Sys2Proof/Machine/Frames.lean ====
section
/-! DEFINITION. The frame encoder (41_frame_encoder.md) and the frame decoder (42_frame_decoder.md):
pure functions of their arguments. -/

namespace Sys2Proof.Machine

/-! ## Builders -/

/-- Bytes 0–5 of a read request (R310). -/
def readRequestHead (addr : Byte) (start count : U16) : List Byte :=
  [addr, 0x03#8, hi start, lo start, hi count, lo count]

/-- Bytes 0–6 of a write request of `n` values: byte 4 is the constant 0x00 (R312). -/
def writeRequestHead (addr : Byte) (start : U16) (n : Nat) : List Byte :=
  [addr, 0x10#8, hi start, lo start, 0x00#8, BitVec.ofNat 8 n, BitVec.ofNat 8 (2 * n)]

/-- Bytes 0–5 of a write ack (R313). -/
def ackHead (addr : Byte) (start : U16) (n : Byte) : List Byte :=
  [addr, 0x10#8, hi start, lo start, 0x00#8, n]

/-- A frame: its checked bytes, their checksum, and what follows the checksum (R403). -/
def framed (checked tail : List Byte) : List Byte := checked ++ crcBytes checked ++ tail

/-- `buildReadRequest(addr, start, count)`: 9 bytes (R451). -/
def buildReadRequest (addr : Byte) (start count : U16) : List Byte :=
  framed (readRequestHead addr start count) [0x00#8]

/-- `buildWriteRequest(addr, start, vals)`: 10 + 2n bytes (R452). -/
def buildWriteRequest (addr : Byte) (start : U16) (vals : List U16) : List Byte :=
  framed (writeRequestHead addr start vals.length ++ valueBytes vals) [0x00#8]

/-- `ackFrame(addr, start, n)`: 8 bytes (R455). -/
def ackFrame (addr : Byte) (start : U16) (n : Byte) : List Byte :=
  framed (ackHead addr start n) []

/-- `answerFrame(addr, vals)`: 5 + 2n bytes (R458). -/
def answerFrame (addr : Byte) (vals : List U16) : List Byte :=
  framed ([addr, 0x03#8, BitVec.ofNat 8 (2 * vals.length)] ++ valueBytes vals) []

/-! ## Parsers

A frame is given as its length `n` and its stored bytes `f`, at most 256 of them (R502). -/

/-- The 0x03 branch of parseSlaveRequest: bytes after index 7 are ignored (R504). -/
def parseReadRequest (f : List Byte) : Except Ferr ParsedRequest :=
  if crc16 (f.take 6) ≠ le16 (byteAt f 6) (byteAt f 7) then .error .feCrc
  else .ok (.readIntent (byteAt f 0) (be16 (byteAt f 2) (byteAt f 3))
    (be16 (byteAt f 4) (byteAt f 5)))

/-- The 0x10 branch of parseSlaveRequest (R505). -/
def parseWriteRequest (n : Nat) (f : List Byte) : Except Ferr ParsedRequest :=
  let cnt := (be16 (byteAt f 4) (byteAt f 5)).toNat
  let bc := (byteAt f 6).toNat
  if bc ≠ 2 * cnt then .error .piBcount
  else if ¬(n = 9 + bc ∨ (n = 10 + bc ∧ byteAt f (n - 1) = 0x00#8)) then .error .feTotlen
  else if crc16 (f.take (7 + bc)) ≠ le16 (byteAt f (7 + bc)) (byteAt f (8 + bc)) then .error .feCrc
  else .ok (.writeIntent (byteAt f 0) (be16 (byteAt f 2) (byteAt f 3)) (valuesOf cnt (f.drop 7)))

/-- `parseSlaveRequest(n, f)` (R501). -/
def parseSlaveRequest (n : Nat) (f : List Byte) : Except Ferr ParsedRequest :=
  if n < Config.reqMin ∨ n > Config.frameMax then .error .feLen
  else if byteAt f 1 = 0x03#8 then parseReadRequest f
  else if byteAt f 1 = 0x10#8 then parseWriteRequest n f
  else .error .feFunc

/-- The ordered register→value map a parsed request carries: the registers a write intent writes, with
their values; a read intent has none (R500, R506). -/
def requestRegisters : ParsedRequest → List (U16 × U16)
  | .readIntent _ _ _ => []
  | .writeIntent _ start vals => registerValues start vals

/-- `parseAnswer(n, f, expAddr, expFunc, expCount)` (R510). -/
def parseAnswer (n : Nat) (f : List Byte) (expAddr expFunc : Byte) (expCount : Nat) :
    Except Ferr (List U16) :=
  if n < Config.ansMin ∨ n > Config.frameMax then .error .feLen
  else if byteAt f 0 ≠ expAddr then .error .feAddr
  else if byteAt f 1 ≠ expFunc then .error .feFunc
  else if (byteAt f 2).toNat ≠ 2 * expCount then .error .feBcount
  else if n ≠ 5 + (byteAt f 2).toNat then .error .feTotlen
  else if crc16 (f.take (n - 2)) ≠ le16 (byteAt f (n - 2)) (byteAt f (n - 1)) then .error .feCrc
  else .ok (valuesOf expCount (f.drop 3))

/-- What masterReadAnalog gives for a read from `start` on: the value read from each register on
success, nothing on failure (R511, R610). -/
def answerRegisters (start : U16) : Except Ferr (List U16) → Option (List (U16 × U16))
  | .ok vals => some (registerValues start vals)
  | .error _ => none

/-- `ackMatch(n, f, ack_exp)` (R515). -/
def ackMatch (n : Nat) (f ackExp : List Byte) : Ferr :=
  if n = 8 ∧ f.take 8 = ackExp.take 8 then .ok else .ackMismatch

/-- The FERR code of a parse: 0 on success (R558, R715, R716). -/
def codeOf {α : Type} : Except Ferr α → Ferr
  | .ok _ => .ok
  | .error e => e

end Sys2Proof.Machine
end

