-- ==== Sys2Proof/Machine/Transactions.lean ====
section
/-! DEFINITION. Transactions (44_transactions.md): how one begins, its guard and its transmission.
The two operations masterReadAnalog (R610) and masterWriteAnalog (R615) begin here; the events that
follow carry them through GUARD, TX and WAIT, and Turn.lean ends them (`txnEnd`, R607). -/

namespace Sys2Proof.Machine

/-- `txn_begin` of a read: the request is built with SLAVE_ADDR as it is now (R601, R457). -/
def beginRead (start count : U16) (purpose : ReadPurpose) (s : State) : State :=
  let a := s.cfg.slaveAddr
  { s with
    tx.buf := buildReadRequest a start count
    txn := some { addr := a, start := start, op := .read count purpose }
    seq := .guard }

/-- `txn_begin` of a write: it also sets the ack the write expects (R601, R456). -/
def beginWrite (start : U16) (vals : List U16) (purpose : WritePurpose) (s : State) : State :=
  let a := s.cfg.slaveAddr
  { s with
    tx.buf := buildWriteRequest a start vals
    ackExp := ackFrame a start (BitVec.ofNat 8 vals.length)
    txn := some { addr := a, start := start, op := .write vals purpose }
    seq := .guard }

/-- masterReadAnalog(start, count): begins the read transaction (R610). -/
def execMasterReadAnalog (start count : U16) (purpose : ReadPurpose) (s : State) :
    Host.Outcome State Fault Refusal :=
  .next (beginRead start count purpose s)

/-- masterWriteAnalog(start, vals): begins the write transaction (R615). -/
def execMasterWriteAnalog (start : U16) (vals : List U16) (purpose : WritePurpose) (s : State) :
    Host.Outcome State Fault Refusal :=
  .next (beginWrite start vals purpose s)

/-- `tx_start()`: the request goes on the line, the driver on, the first character begins (R560). -/
def txStart (s : State) : State :=
  emit (.txByte (byteAt s.tx.buf 0))
    { s with tx.de := true, tx.bits := Config.charBits * s.tx.buf.length, seq := .tx }

/-- The line is quiet enough for a request: T_IDLE_MS of silence, no character arriving, no frame
open (R602). -/
def lineIdle (s : State) : Bool :=
  decide (s.cfg.tIdle.toNat ≤ s.quietMs) && !s.rx.active && !s.rx.inFrame

/-- GUARD at a `tick_ms` (R602). -/
def guardTick (s : State) : State := if lineIdle s then txStart s else s

/-- The answer window opens when the last bit has been sent (R561, R604). -/
def openWindow (s : State) : State :=
  { s with tx.de := false, tx.bits := 0, seq := .wait, txnMs := 0, ansSeen := false }

/-- The transmitter part of a `tick_bit` (R561). -/
def transmitTick (s : State) : State :=
  match s.seq with
  | .tx =>
    settleNat (s.tx.bits - 1) fun b =>
      if b = 0 then openWindow s
      else if b % Config.charBits = 0 then
        emit (.txByte (byteAt s.tx.buf (s.tx.buf.length - b / Config.charBits)))
          { s with tx.bits := b }
      else { s with tx.bits := b }
  | .off => s
  | .listen => s
  | .guard => s
  | .wait => s
  | .pause => s

end Sys2Proof.Machine
end

