-- ==== Sys2Proof/Machine/Turn.lean ====
section
/-! DEFINITION. The MASTER turn (45_turn_sequencer.md), the end of a transaction (44_transactions.md
R605–R607), stops and re-initialisation (43_line_and_arbiter.md R575–R577), invalidation (R690), and
the `tick_ms` handler of each sequencer state (R580). -/

namespace Sys2Proof.Machine

/-! ## Aborts and stops -/

/-- The abort reason of a stop (R577, R662). -/
def StopReason.abort : StopReason → AbortReason
  | .stop => .stop
  | .reinit => .reinit

/-- The arbiter state an abort leads to: SLAVE after activity, INIT after a stop (R662). -/
def AbortReason.target : AbortReason → Arb
  | .activity => .slave
  | .none => .init
  | .stop => .init
  | .reinit => .init

/-- `abort_turn(reason)` (R662); the transaction in its guard, if any, is dropped (R603). -/
def abortTurn (reason : AbortReason) (s : State) : State :=
  let s1 := leaveTurn .off s
  setArb reason.target
    (raiseIrq .turnAbort
      { s1 with
        lastAbort := reason
        cnt.aborts := s.cnt.aborts + 1
        txnDiscard := false
        txn := none })

/-- What REINIT does to the receiver: an open frame is discarded, `quiet_ms` restarts (R577). -/
def restartReceiver (s : State) : State :=
  { s with rx.owner := (if s.rx.inFrame then .discard else s.rx.owner), quietMs := 0 }

/-- `do_stop(r)` (R577). -/
def doStop (r : StopReason) (s : State) : State :=
  let s1 := { s with stopPending := none }
  let s2 := if inTurn s1 then abortTurn r.abort s1 else setArb .init (leaveTurn .off s1)
  match r with
  | .stop => s2
  | .reinit => restartReceiver s2

/-- `stop_request(r)`: it waits for a transaction in flight; REINIT replaces a waiting STOP, not the
other way round (R575). -/
def stopRequest (r : StopReason) (s : State) : State :=
  if inTxn s then
    if s.stopPending = some .reinit then s else { s with stopPending := some r }
  else doStop r s

/-! ## The read unit -/

/-- `end_turn()` (R653). -/
def endTurn (s : State) : State := { leaveTurn .listen s with listenMs := 0 }

/-- A read cycle is due at this read step (R680). -/
def cycleDue (s : State) : Bool :=
  !s.cyc.active && !irqSet .cycleDone s && effEn s != 0#8 &&
    (s.cyc.refreshReq || !s.cyc.valid ||
      decide (1000 * s.cfg.cyclePeriod.toNat ≤ s.cyc.sinceMs))

/-- The cycle start check (R680, R685). -/
def cycleStart (s : State) : State :=
  if cycleDue s then
    { s with cyc.active := true, cyc.doneMask := 0#8, cyc.refreshReq := false }
  else s

/-- `complete_cycle()` (R682). -/
def completeCycle (s : State) : State :=
  raiseIrq .cycleDone
    { s with
      cyc.active := false
      cyc.valid := true
      cyc.sinceMs := 0
      cnt.cycles := s.cnt.cycles + 1 }

/-- The effective partitions not yet read in this cycle (R681). -/
def pendingParts (s : State) : BitVec 8 := effEn s &&& ~~~s.cyc.doneMask

/-- `read_step()` (R681). -/
def readStep (s : State) : State :=
  let s1 := cycleStart s
  if !s1.cyc.active then endTurn s1
  else if effEn s1 = 0#8 then endTurn { s1 with cyc.active := false }
  else
    match lowestBit (pendingParts s1) with
    | none => endTurn (completeCycle s1)
    | some p =>
      let e := s1.cfg.pt[p]
      beginRead e.start (e.count.setWidth 16) (.partRead p e.base) s1

/-! ## Units of a turn -/

/-- The READ unit: `advance(READ)` (R651). -/
def readUnit (s : State) : State := readStep { s with step := 0, unit := .read }

/-- `drain_next()` (R676). -/
def drainNext (s : State) : State :=
  match s.wq with
  | [] => readUnit s
  | h :: _ =>
    if s.drainMs < s.cfg.tDrain.toNat then beginWrite h.start h.vals .drainWrite s else readUnit s

/-- The DRAIN unit begins (R651, R675). -/
def drainUnit (s : State) : State := drainNext { s with step := 0, unit := .drain, drainMs := 0 }

/-- A sub-slot as a starting sequence leaves it: no longer dirty (R665). -/
def SubSlot.latch (b : SubSlot) : SubSlot := { b with dirty := false }

/-- `mode_start(z)` (R665). -/
def modeStart (z : Zone) (s : State) : State :=
  let sl := slotsOf z s
  let s1 := setSlots z { zone := sl.zone.latch, hot := sl.hot.latch } s
  beginRead (modeRegOf z s) 1#16 .modeRead
    { s1 with
      unit := unitOf z
      step := 0
      run :=
        { s.run with
          latZ := sl.zone.pend
          zcode := sl.zone.code
          latH := sl.hot.pend
          hcode := sl.hot.code
          modeReg := modeRegOf z s
          dcReg := dcRegOf z s } }

/-- `advance(u)`: the first unit from `u` on that has something to do (R650, R651). -/
def advance (u : TurnUnit) (s : State) : State :=
  match u with
  | .mode0 =>
    if zoneReady .z0 s then modeStart .z0 s
    else if zoneReady .z1 s then modeStart .z1 s
    else drainUnit s
  | .mode1 => if zoneReady .z1 s then modeStart .z1 s else drainUnit s
  | .drain => drainUnit s
  | .read => readUnit s

/-- `turn_start()` (R651). -/
def turnStart (s : State) : State := advance .mode0 s

/-- The unit after a unit (R650). -/
def TurnUnit.next : TurnUnit → TurnUnit
  | .mode0 => .mode1
  | .mode1 => .drain
  | .drain => .read
  | .read => .read

/-! ## The mode-update protocol -/

/-- A step of a mode program (R667): a one-value write, or the pause. -/
inductive ProgStep where
  | write (reg v : U16)
  | pause
deriving DecidableEq, Repr

/-- Step `k` of the antifreeze program (R667). Other positions do not occur. -/
def antifreezeStep (r : ModeRun) : Nat → Option ProgStep
  | 1 => some (.write r.dcReg 1#16)
  | 2 => some .pause
  | 3 => some (.write r.dcReg 0#16)
  | 4 => some (.write r.modeReg r.val)
  | _ => none

/-- Step `k` of the normal program (R667). Other positions do not occur. -/
def normalStep (r : ModeRun) : Nat → Option ProgStep
  | 1 => some (.write r.modeReg r.val)
  | 2 => some (.write r.dcReg 1#16)
  | 3 => some (.write r.modeReg r.val)
  | 4 => some .pause
  | 5 => some (.write r.modeReg r.val)
  | 6 => some (.write r.dcReg 0#16)
  | _ => none

/-- Step `k` of the program chosen by `mode_af` (R667). -/
def program (r : ModeRun) (k : Nat) : Option ProgStep :=
  if r.af then antifreezeStep r k else normalStep r k

/-- The position of the program's last step (R667, R669). -/
def lastStep (r : ModeRun) : Nat := if r.af then 4 else 6

/-- `run_step()` (R668). A position outside the program ends the unit; no run reaches one (log 11). -/
def runStep (s : State) : State :=
  match program s.run s.step with
  | some (.write reg v) => beginWrite reg [v] .modeWrite s
  | some .pause => { s with seq := .pause, pauseMs := 0 }
  | none => advance s.unit.next s

/-- A code merged under a mask: `(m & ~mask) | (code & mask)` (R666). -/
def mergeField (mask m : U16) (code : Byte) : U16 :=
  (m &&& ~~~mask) ||| (code.setWidth 16 &&& mask)

/-- The merged mode value: the zone field if latched, then the hot-water field if latched (R666). -/
def mergeMode (r : ModeRun) (m : U16) : U16 :=
  let m1 := if r.latZ then mergeField Config.zoneMask m r.zcode else m
  if r.latH then mergeField Config.hotMask m1 r.hcode else m1

/-- The result of step 0, before its continuation (R666). -/
def modeMerge (m : U16) (s : State) : State :=
  let v := mergeMode s.run m
  { s with run.val := v, run.af := v &&& Config.zoneMask == 0x0001#16, step := 1 }

/-- A sub-slot at the completion of a sequence: cleared if it was latched and not rewritten (R670). -/
def SubSlot.settled (latched : Bool) (b : SubSlot) : SubSlot :=
  if latched && !b.dirty then { b with pend := false } else b

/-- The sub-slots of the zone a completed sequence served (R670). -/
def clearLatched (z : Zone) (s : State) : State :=
  let sl := slotsOf z s
  setSlots z { zone := sl.zone.settled s.run.latZ, hot := sl.hot.settled s.run.latH } s

/-- `mode_complete(z)` but for its continuation; z is the running unit's zone (R670). -/
def modeComplete (s : State) : State :=
  match s.unit with
  | .mode0 => raiseIrq .modeDone (clearLatched .z0 s)
  | .mode1 => raiseIrq .modeDone (clearLatched .z1 s)
  | .drain => s
  | .read => s

/-! ## The end of a transaction -/

/-- A drain write that succeeded: the head is removed; WQ_EMPTY when it was the last (R677). -/
def drainDone (s : State) : State :=
  let s1 := { s with wq := s.wq.tail }
  if s1.wq.isEmpty then raiseIrq .wqEmpty s1 else s1

/-- A partition read that succeeded: values stored, partition done, cycle completed when it was the
last; nothing of this after an INVALIDATE (R683). -/
def partDone (p : Fin 8) (base : BitVec 9) (vals : List U16) (s : State) : State :=
  if s.txnDiscard then s
  else
    let s1 := storeVr base.toNat vals s
    let s2 := { s1 with cyc.doneMask := s.cyc.doneMask ||| (1#8 <<< p.val) }
    if pendingParts s2 = 0#8 then completeCycle s2 else s2

/-- The result rule of the purpose, without its continuation: what is applied even when a stop is
pending (R607, R666, R669–R671, R677, R683). -/
def applyResult (op : TxnOp) (r : Except Ferr (List U16)) (s : State) : State :=
  match op, r with
  | .read _ .modeRead, .ok vals => modeMerge (vals.headD 0#16) s
  | .read _ .modeRead, .error _ => s
  | .read _ (.partRead p base), .ok vals => { partDone p base vals s with txnDiscard := false }
  | .read _ (.partRead _ _), .error _ => { s with txnDiscard := false }
  | .write _ .modeWrite, .ok _ => if s.step = lastStep s.run then modeComplete s else s
  | .write _ .modeWrite, .error _ => s
  | .write _ .drainWrite, .ok _ => drainDone s
  | .write _ .drainWrite, .error _ => s

/-- The continuation of the result rule: next step, next unit, or end of turn (R607, R666, R669–R671,
R677, R683). -/
def continueTurn (op : TxnOp) (r : Except Ferr (List U16)) (s : State) : State :=
  match op, r with
  | .read _ .modeRead, .ok _ => runStep s
  | .read _ .modeRead, .error _ => advance s.unit.next s
  | .read _ (.partRead _ _), _ => endTurn s
  | .write _ .modeWrite, .ok _ =>
    if s.step = lastStep s.run then advance s.unit.next s else runStep { s with step := s.step + 1 }
  | .write _ .modeWrite, .error _ => advance s.unit.next s
  | .write _ .drainWrite, .ok _ => drainNext s
  | .write _ .drainWrite, .error _ => readUnit s

/-- The record of a transaction's result: `last_err`, its counter, TXN_FAIL on failure (R607). -/
def recordResult (code : Ferr) (s : State) : State :=
  let s1 := { s with lastErr := code }
  if code = .ok then { s1 with cnt.txnOk := s.cnt.txnOk + 1 }
  else raiseIrq .txnFail { s1 with cnt.txnFail := s.cnt.txnFail + 1 }

/-- Every write that sent its request asks for a refresh (R607, R684). -/
def noteAttempt (op : TxnOp) (s : State) : State :=
  match op with
  | .read _ _ => s
  | .write _ _ => { s with cyc.refreshReq := true }

/-- `txn_end(code, vals)` (R607). Without a transaction there is nothing to end (log 11). -/
def txnEnd (r : Except Ferr (List U16)) (s : State) : State :=
  match s.txn with
  | none => s
  | some t =>
    let s1 := applyResult t.op r (noteAttempt t.op (recordResult (codeOf r) { s with txn := none }))
    match s1.stopPending with
    | some why => doStop why s1
    | none => continueTurn t.op r s1

/-- `txn_answer(n, f, fe)`: the answer frame is judged by the transaction's kind (R605, R503). -/
def txnAnswer (n : Nat) (f : List Byte) (fe : Bool) (s : State) : State :=
  match s.txn with
  | none => s
  | some t =>
    if fe then txnEnd (.error .feUart) s
    else
      match t.op with
      | .read count _ => txnEnd (parseAnswer n f t.addr 0x03#8 count.toNat) s
      | .write _ _ =>
        match ackMatch n f s.ackExp with
        | .ok => txnEnd (.ok []) s
        | e => txnEnd (.error e) s

/-! ## `tick_ms`, by sequencer state -/

/-- OFF: SLAVE → MASTER after the quiescence window (R572). -/
def offTick (s : State) : State :=
  if s.en && decide (s.arb = .slave) && decide (s.cfg.tQuiet.toNat < s.quietMs) && !s.rx.active &&
      !s.rx.inFrame then
    turnStart (setArb .master s)
  else s

/-- LISTEN: the window between turns (R652). -/
def listenTick (s : State) : State :=
  settleNat (satInc s.listenMs) fun t =>
    let s1 := { s with listenMs := t }
    if s.cfg.tListen.toNat ≤ t then turnStart s1 else s1

/-- WAIT: the answer timeout; an answer still open is discarded (R606). -/
def waitTick (s : State) : State :=
  settleNat (satInc s.txnMs) fun t =>
    let s1 := { s with txnMs := t }
    if s.cfg.tTxn.toNat ≤ t then
      txnEnd (.error .teTimeout)
        (if s1.rx.inFrame && decide (s1.rx.owner = .answer) then { s1 with rx.owner := .discard }
         else s1)
    else s1

/-- PAUSE: the pause of a mode sequence (R668). -/
def pauseTick (s : State) : State :=
  settleNat (satInc s.pauseMs) fun t =>
    let s1 := { s with pauseMs := t }
    if s.cfg.tPause.toNat ≤ t then runStep { s1 with step := s.step + 1 } else s1

/-- The counters of every `tick_ms`; `drain_ms` runs while a turn is in the DRAIN unit (R580). -/
def countMs (s : State) : State :=
  settleNat (satInc s.quietMs) fun q =>
  settleNat (satInc s.cyc.sinceMs) fun c =>
  settleNat (s.msTicks + 1) fun k =>
  settleNat (if inTurn s && decide (s.unit = .drain) then satInc s.drainMs else s.drainMs) fun d =>
    { s with quietMs := q, cyc.sinceMs := c, drainMs := d, msTicks := k }

/-- The `tick_ms` handler (R580). -/
def tickMs (s : State) : State :=
  match s.seq with
  | .off => offTick (countMs s)
  | .listen => listenTick (countMs s)
  | .guard => guardTick (countMs s)
  | .tx => countMs s
  | .wait => waitTick (countMs s)
  | .pause => pauseTick (countMs s)

/-! ## Invalidation -/

/-- A partition read is in its guard, on the line or awaiting its answer (R690). -/
def partReadInFlight (s : State) : Bool :=
  match s.txn with
  | some { op := .read _ (.partRead _ _), .. } => inTxn s || decide (s.seq = .guard)
  | _ => false

/-- `invalidate()`: every VALID bit cleared, and so every VALUE unspecified again (R690, R140). -/
def invalidate (s : State) : State :=
  { s with
    vr := []
    vrEpoch := s.vrEpoch + 1
    cyc.doneMask := 0#8
    cyc.active := false
    cyc.valid := false
    txnDiscard := (s.txnDiscard || partReadInFlight s) }

end Sys2Proof.Machine
end

