-- ==== Sys2Proof/Machine/Line.lean ====
section
/-! DEFINITION. The receiver, the observation of foreign traffic, the snoop, and the wire frames as
instructions (43_line_and_arbiter.md R552–R559, 30_encoding.md R310–R313). A frame is fetched into
RXB by the RxByte events and takes its effect when it ends. -/

namespace Sys2Proof.Machine

/-! ## Characters -/

/-- `RxStart`: a start bit; in a guard or a pause it is foreign activity (R552, R559). -/
def rxStart (s : State) : State :=
  if s.tx.de then s
  else
    let s1 := { s with rx.active := true }
    if watching s1 then abortTurn .activity s1 else s1

/-- The owner of a frame whose first byte arrives now (R555). -/
def frameOwner (s : State) : RxOwner := if s.seq = .wait then .answer else .snoop

/-- A new frame opens (R554). -/
def openFrame (s : State) : State :=
  let own := frameOwner s
  { s with
    rx.inFrame := true
    rx.len := 0
    rx.ferr := false
    rx.owner := own
    rx.buf := []
    ansSeen := (s.ansSeen || decide (own = .answer)) }

/-- A byte joins the open frame: the first 256 are stored, all are counted (R554, D28). -/
def storeByte (b : Byte) (ferr : Bool) (s : State) : State :=
  { s with
    rx.buf := (if s.rx.len < Config.frameMax then s.rx.buf ++ [b] else s.rx.buf)
    rx.len := min (s.rx.len + 1) Config.rxLenMax
    rx.ferr := (s.rx.ferr || ferr)
    rx.gap := 0 }

/-- `observe()`: foreign traffic forces SLAVE (R556). -/
def observe (s : State) : State :=
  if s.en && decide (s.arb ≠ .slave) then
    setArb .slave (if s.seq = .listen then leaveTurn .off s else s)
  else s

/-- `RxByte(b, ferr)` (R554, R559). -/
def rxByte (b : Byte) (ferr : Bool) (s : State) : State :=
  if s.tx.de then s
  else
    let first := !s.rx.inFrame
    let s1 := { s with rx.active := false, quietMs := 0 }
    let s2 := storeByte b ferr (if first then openFrame s1 else s1)
    let s3 := if watching s2 then abortTurn .activity s2 else s2
    if first && decide (s3.rx.owner = .snoop) then observe s3 else s3

/-! ## The snoop -/

/-- A parsed request in the layout of R113 (R558, R715). -/
def requestResult : ParsedRequest → ParseResult
  | .readIntent a st c => { kind := .readIntent, addr := a, func := 0x03#8, start := st, count := c }
  | .writeIntent a st vs =>
    { kind := .writeIntent, addr := a, func := 0x10#8, start := st,
      count := BitVec.ofNat 16 vs.length }

/-- The result of an observed frame: FE_UART before any parse (R503, R558). -/
def snoopParse (n : Nat) (f : List Byte) (fe : Bool) : Except Ferr ParsedRequest :=
  if fe then .error .feUart else parseSlaveRequest n f

/-- The interrupt and the error counter of an observed frame; PI_BCOUNT is silent (R558). -/
def snoopReport (code : Ferr) (s : State) : State :=
  match code with
  | .ok => raiseIrq .snoopOk s
  | .piBcount => s
  | .feLen | .feAddr | .feFunc | .feBcount | .feTotlen | .feCrc | .feUart | .ackMismatch
  | .teTimeout => raiseIrq .snoopErr { s with cnt.snoopErr := s.cnt.snoopErr + 1 }

/-- `snoop(n, f, fe)` (R558). -/
def snoopFrame (n : Nat) (f : List Byte) (fe : Bool) (s : State) : State :=
  let r := snoopParse n f fe
  snoopReport (codeOf r)
    { s with
      snoop :=
        { len := BitVec.ofNat 9 (min n Config.frameMax)
          ovf := decide (n > Config.frameMax)
          uerr := fe
          ferr := codeOf r
          res := (match r with
            | .ok q => requestResult q
            | .error _ => ParseResult.zero)
          buf := memWriteAll s.snoop.buf 0 (f.take Config.frameMax) }
      cnt.frames := s.cnt.frames + 1 }

/-! ## Frames -/

/-- The receiver with no frame open; a character in progress stays in progress (R557). -/
def closeFrame (s : State) : State :=
  { s with
    rx.inFrame := false
    rx.gap := 0
    rx.len := 0
    rx.ferr := false
    rx.owner := .snoop
    rx.buf := [] }

/-- `frame_end()` for a frame of length `n` with stored bytes `f`: the frame goes to its owner
(R557). -/
def deliverFrame (n : Nat) (f : List Byte) (s : State) : State :=
  match s.rx.owner with
  | .snoop => snoopFrame n f s.rx.ferr (closeFrame s)
  | .answer => txnAnswer n f s.rx.ferr (closeFrame s)
  | .discard => closeFrame s

/-- The end of a frame of exactly these bytes. -/
def endFrame (f : List Byte) (s : State) : State := deliverFrame f.length f s

/-- READ_REQUEST: the end of a read request frame (R310, R557). -/
def execReadRequest (addr : Byte) (start count : U16) (tail : List Byte) (s : State) :
    Host.Outcome State Fault Refusal :=
  .next (endFrame (framed (readRequestHead addr start count) tail) s)

/-- READ_ANSWER: the end of a read answer frame (R311, R557). -/
def execReadAnswer (addr : Byte) (vals : List U16) (s : State) :
    Host.Outcome State Fault Refusal :=
  .next (endFrame (answerFrame addr vals) s)

/-- WRITE_REQUEST: the end of a write request frame (R312, R557). -/
def execWriteRequest (addr : Byte) (start : U16) (vals : List U16) (pad : Bool) (s : State) :
    Host.Outcome State Fault Refusal :=
  .next (endFrame (framed (writeRequestHead addr start vals.length ++ valueBytes vals)
    (if pad then [0x00#8] else [])) s)

/-- WRITE_ACK: the end of a write ack frame (R313, R557). -/
def execWriteAck (addr : Byte) (start : U16) (n : Byte) (s : State) :
    Host.Outcome State Fault Refusal :=
  .next (endFrame (ackFrame addr start n) s)

/-- The role in which the open frame will be read, by its owner and the transaction in progress
(R557, R605); a discarded frame has none. -/
def openRole (s : State) : Option FrameRole :=
  match s.rx.owner with
  | .snoop => some .request
  | .discard => none
  | .answer =>
    match s.txn with
    | none => none
    | some t =>
      match t.op with
      | .read _ _ => some .answer
      | .write _ _ => some .ack

end Sys2Proof.Machine
end

