-- ==== Sys2Proof/Machine/Commands.lean ====
section
/-! DEFINITION. The host commands (46_host_commands.md R700–R722), each from `beginCommand` to
`finish` (R705, R731). CMD itself records the word when it is written (HostBus.lean, Events.lean). -/

namespace Sys2Proof.Machine

/-- NOP (R700). -/
def execNop (s : State) : Host.Outcome State Fault Refusal :=
  .next (finish .ok (beginCommand s))

/-- CRC.INIT (R701). -/
def execCrcInit (s : State) : Host.Outcome State Fault Refusal :=
  .next (finish .ok { beginCommand s with host.crcAcc := crcInitial })

/-- CRC.BYTE b (R702). -/
def execCrcByte (b : Byte) (s : State) : Host.Outcome State Fault Refusal :=
  .next (finish .ok { beginCommand s with host.crcAcc := crcStep s.host.crcAcc b })

/-- CRC.BUF L: crc16 of HBUF[0 .. L) (R703). -/
def execCrcBuf (l : BitVec 9) (s : State) : Host.Outcome State Fault Refusal :=
  .next
    (if l.toNat > Config.frameMax then finish .badRange (beginCommand s)
     else finish .ok { beginCommand s with host.crcAcc := crc16 (hbufBytes l.toNat s) })

/-- BLD.READ L (R710). -/
def execBldRead (l : BitVec 9) (s : State) : Host.Outcome State Fault Refusal :=
  .next
    (if l.toNat < 1 ∨ l.toNat > Config.readCountMax then finish .badRange (beginCommand s)
     else finish .ok
       (putFrame (buildReadRequest s.host.argAddr s.host.argStart (l.setWidth 16))
         (beginCommand s)))

/-- BLD.WRITE L: a write request of HVAL[0 .. L) (R711). -/
def execBldWrite (l : BitVec 9) (s : State) : Host.Outcome State Fault Refusal :=
  .next
    (if l.toNat < 1 ∨ l.toNat > Config.writeCountMax then finish .badRange (beginCommand s)
     else finish .ok
       (putFrame (buildWriteRequest s.host.argAddr s.host.argStart (hvalWords l.toNat s))
         (beginCommand s)))

/-- BLD.ACK L (R712). -/
def execBldAck (l : BitVec 9) (s : State) : Host.Outcome State Fault Refusal :=
  .next
    (if l.toNat > 255 then finish .badRange (beginCommand s)
     else finish .ok
       (putFrame (ackFrame s.host.argAddr s.host.argStart (l.setWidth 8)) (beginCommand s)))

/-- The result of PRS.REQ in the host unit (R715). -/
def reportRequest (r : Except Ferr ParsedRequest) (s : State) : State :=
  match r with
  | .error e => { s with host.ferr := e, host.pres := ParseResult.zero }
  | .ok q =>
    let s1 := { s with host.ferr := .ok, host.pres := requestResult q }
    match q with
    | .readIntent _ _ _ => s1
    | .writeIntent _ _ vs => putValues vs s1

/-- PRS.REQ: parseSlaveRequest of HBUF[0 .. HLEN); a failed parse is a result, not a command error
(R715, D67). -/
def execPrsReq (s : State) : Host.Outcome State Fault Refusal :=
  .next (finish .ok
    (reportRequest (parseSlaveRequest s.host.hlen.toNat (hostFrame s)) (beginCommand s)))

/-- The result of PRS.ANS in the host unit (R716). -/
def reportAnswer (l : BitVec 9) (r : Except Ferr (List U16)) (s : State) : State :=
  match r with
  | .error e => { s with host.ferr := e, host.pres := ParseResult.zero }
  | .ok vs =>
    putValues vs
      { s with
        host.ferr := .ok
        host.pres :=
          { kind := .answer, addr := s.host.argAddr, func := s.host.argFunc, start := 0#16,
            count := l.setWidth 16 } }

/-- PRS.ANS L: parseAnswer of HBUF[0 .. HLEN) with ARG.ADDR, ARG.FUNC and L (R716). -/
def execPrsAns (l : BitVec 9) (s : State) : Host.Outcome State Fault Refusal :=
  .next (finish .ok
    (reportAnswer l
      (parseAnswer s.host.hlen.toNat (hostFrame s) s.host.argAddr s.host.argFunc l.toNat)
      (beginCommand s)))

/-- WQ.PUSH L: queues {ARG.START, HVAL[0 .. L)}; BAD_RANGE is checked before WQ_FULL (R721, R812). -/
def execWqPush (l : BitVec 9) (s : State) : Host.Outcome State Fault Refusal :=
  .next
    (if l.toNat < 1 ∨ l.toNat > Config.writeCountMax then finish .badRange (beginCommand s)
     else if s.wq.length = Config.wqDepth then finish .wqFull (beginCommand s)
     else finish .ok
       { beginCommand s with
         wq := s.wq ++ [{ start := s.host.argStart, vals := hvalWords l.toNat s }] })

/-- A sub-slot as MODE.REQ leaves it: the latest request wins (R672, R722). -/
def SubSlot.request (code : Byte) : SubSlot := { pend := true, code := code, dirty := true }

/-- MODE.REQ z, s, code (R722). -/
def execModeReq (z : Zone) (sub : SubField) (code : Byte) (s : State) :
    Host.Outcome State Fault Refusal :=
  let sl := slotsOf z s
  let sl1 := match sub with
    | .zoneMode => { sl with zone := SubSlot.request code }
    | .hotWater => { sl with hot := SubSlot.request code }
  .next (finish .ok (setSlots z sl1 (beginCommand s)))

end Sys2Proof.Machine
end

