-- ==== Sys2Proof/Machine/HostBus.lean ====
section
/-! DEFINITION. The host bus: the address map (20_memory.md R210) and the read and write of each
register and memory word (10_state.md R101–R140, R102's access types). -/

namespace Sys2Proof.Machine

/-- The mapped words of R210. -/
inductive HostReg where
  | id
  | version
  | ctrl
  | status
  | irqStatus
  | irqEnable
  | slaveAddr
  | cmd
  | cmdStatus
  | arg
  | hlen
  | crcAcc
  | pres0
  | pres1
  | wqStatus
  | modeStatus
  | modeSlots
  | modeCfg0
  | modeCfg1
  | modeEn
  | tQuiet
  | tTxn
  | tDrain
  | tPause
  | tIdle
  | tListen
  | cyclePeriod
  | tGap
  | cntFrames
  | cntSnoopErr
  | cntTxnOk
  | cntTxnFail
  | cntCycles
  | cntAborts
  | snoopLen
  | snoopRes0
  | snoopRes1
  | cycleStatus
  | ptRange (p : Fin 8)
  | ptBase (p : Fin 8)
  | hbuf (i : Nat)
  | hval (i : Nat)
  | snoopBuf (i : Nat)
  | vr (i : Nat)
deriving DecidableEq, Repr

/-- The single registers of R210 with their byte offsets. -/
def registerMap : List (Nat × HostReg) :=
  [ (0x000, .id), (0x004, .version), (0x008, .ctrl), (0x00C, .status), (0x010, .irqStatus),
    (0x014, .irqEnable), (0x018, .slaveAddr), (0x01C, .cmd), (0x020, .cmdStatus), (0x024, .arg),
    (0x028, .hlen), (0x02C, .crcAcc), (0x030, .pres0), (0x034, .pres1), (0x038, .wqStatus),
    (0x03C, .modeStatus), (0x040, .modeSlots), (0x044, .modeCfg0), (0x048, .modeCfg1),
    (0x04C, .modeEn) ] ++
  [ (0x050, .tQuiet), (0x054, .tTxn), (0x058, .tDrain), (0x05C, .tPause), (0x060, .tIdle),
    (0x064, .tListen), (0x068, .cyclePeriod), (0x06C, .tGap), (0x070, .cntFrames),
    (0x074, .cntSnoopErr), (0x078, .cntTxnOk), (0x07C, .cntTxnFail), (0x080, .cntCycles),
    (0x084, .cntAborts), (0x088, .snoopLen), (0x08C, .snoopRes0), (0x090, .snoopRes1),
    (0x094, .cycleStatus) ]

/-- The word address of an access: bits [1:0] are ignored (R203, R205). -/
def wordAddress (a : BitVec 14) : Nat := a.toNat / 4 * 4

/-- The mapped word at a word address; none where R210 lists nothing (R204). -/
def mappedAt (w : Nat) : Option HostReg :=
  if w < 0x098 then registerMap.lookup w
  else if w < 0x100 then none
  else if w < 0x140 then
    let p : Fin 8 := Fin.ofNat 8 ((w - 0x100) / 8)
    some (if w % 8 = 0 then .ptRange p else .ptBase p)
  else if w < 0x400 then none
  else if w < 0x800 then some (.hbuf ((w - 0x400) / 4))
  else if w < 0xA00 then some (.hval ((w - 0x800) / 4))
  else if w < 0xC00 then none
  else if w < 0x1000 then some (.snoopBuf ((w - 0xC00) / 4))
  else if w < 0x1800 then some (.vr ((w - 0x1000) / 4))
  else none

/-- The mapped word a bus address selects (R203–R205, R210). -/
def hostReg (a : BitVec 14) : Option HostReg := mappedAt (wordAddress a)

/-! ## Reads -/

/-- What a mapped word reads as (10_state.md); a read changes nothing (R211). -/
def readReg (r : HostReg) (s : State) : Word :=
  match r with
  | .id => 0x4D425255#32
  | .version => 0x00010000#32
  | .ctrl => 0#31 ++ BitVec.ofBool s.en
  | .status => statusWord s
  | .irqStatus => s.irqStatus.setWidth 32
  | .irqEnable => s.irqEnable.setWidth 32
  | .slaveAddr => s.cfg.slaveAddr.setWidth 32
  | .cmd => s.host.cmd
  | .cmdStatus => cmdStatusWord s
  | .arg => argWord s
  | .hlen => s.host.hlen.setWidth 32
  | .crcAcc => s.host.crcAcc.setWidth 32
  | .pres0 => s.host.pres.word0
  | .pres1 => s.host.pres.word1
  | .wqStatus => wqStatusWord s
  | .modeStatus => modeStatusWord s
  | .modeSlots => modeSlotsWord s
  | .modeCfg0 => s.cfg.dcReg0 ++ s.cfg.modeReg0
  | .modeCfg1 => s.cfg.dcReg1 ++ s.cfg.modeReg1
  | .modeEn => modeEnWord s
  | .tQuiet => s.cfg.tQuiet.setWidth 32
  | .tTxn => s.cfg.tTxn.setWidth 32
  | .tDrain => s.cfg.tDrain.setWidth 32
  | .tPause => s.cfg.tPause.setWidth 32
  | .tIdle => s.cfg.tIdle.setWidth 32
  | .tListen => s.cfg.tListen.setWidth 32
  | .cyclePeriod => s.cfg.cyclePeriod.setWidth 32
  | .tGap => s.cfg.tGap.setWidth 32
  | .cntFrames => s.cnt.frames
  | .cntSnoopErr => s.cnt.snoopErr
  | .cntTxnOk => s.cnt.txnOk
  | .cntTxnFail => s.cnt.txnFail
  | .cntCycles => s.cnt.cycles
  | .cntAborts => s.cnt.aborts
  | .snoopLen => snoopLenWord s
  | .snoopRes0 => s.snoop.res.word0
  | .snoopRes1 => s.snoop.res.word1
  | .cycleStatus => cycleStatusWord s
  | .ptRange p => ptRangeWord p s
  | .ptBase p => ptBaseWord p s
  | .hbuf i => (hbufAt s i).setWidth 32
  | .hval i => (hvalAt s i).setWidth 32
  | .snoopBuf i => (snoopAt s i).setWidth 32
  | .vr i => vrWord i s

/-- The data of `BusRead(a)`; an unmapped word reads 0 (R203, R204). -/
def busReadData (a : BitVec 14) (s : State) : Word :=
  match hostReg a with
  | some r => readReg r s
  | none => 0#32

/-- `BusRead(a)`: the data goes to the host and nothing else changes (R211). -/
def busRead (a : BitVec 14) (s : State) : State := emit (.busData (busReadData a s)) s

/-! ## Writes -/

/-- CTRL: EN takes its new value (1 → 0 is a stop request), then REINIT, INVALIDATE, REFRESH in this
order (R103, R575, R576, R684, R690). -/
def writeCtrl (v : Word) (s : State) : State :=
  let s1 := { s with en := v.getLsbD 0 }
  let s2 := if s.en && !v.getLsbD 0 then stopRequest .stop s1 else s1
  let s3 := if v.getLsbD 1 then stopRequest .reinit s2 else s2
  let s4 := if v.getLsbD 2 then invalidate s3 else s3
  if v.getLsbD 3 then { s4 with cyc.refreshReq := true } else s4

/-- HLEN is WARL: a value greater than 256 becomes 256 (R111). -/
def legalHlen (v : BitVec 9) : BitVec 9 := if v.toNat > Config.frameMax then 256#9 else v

/-- CYCLE_PERIOD_S is WARL: a value below 10 becomes 10 (R124). -/
def legalPeriod (v : U16) : U16 := if v.toNat < 10 then 10#16 else v

/-- T_GAP_BITS is WARL: 0 becomes 1 (R125). -/
def legalGap (v : Byte) : Byte := if v = 0#8 then 1#8 else v

/-- The entry of the partition table with PT_RANGE written (R135). -/
def Partition.withRange (v : Word) (p : Partition) : Partition :=
  { p with start := v.extractLsb' 0 16, count := v.extractLsb' 16 7 }

/-- The entry of the partition table with PT_BASE written (R135). -/
def Partition.withBase (v : Word) (p : Partition) : Partition :=
  { p with base := v.extractLsb' 0 9, en := v.getLsbD 31 }

/-- A write to a mapped word other than CMD, whose write issues a command (Events.lean); a write to
a read-only word is ignored (R102, R212). -/
def writeReg (r : HostReg) (v : Word) (s : State) : State :=
  match r with
  | .ctrl => writeCtrl v s
  | .irqStatus => ackIrq v s
  | .irqEnable => { s with irqEnable := v.extractLsb' 0 9 }
  | .slaveAddr => { s with cfg.slaveAddr := v.extractLsb' 0 8 }
  | .cmd => { s with host.cmd := v }
  | .arg =>
    { s with
      host.argStart := v.extractLsb' 0 16
      host.argAddr := v.extractLsb' 16 8
      host.argFunc := v.extractLsb' 24 8 }
  | .hlen => { s with host.hlen := legalHlen (v.extractLsb' 0 9) }
  | .crcAcc => { s with host.crcAcc := v.extractLsb' 0 16 }
  | .modeCfg0 =>
    { s with cfg.modeReg0 := v.extractLsb' 0 16, cfg.dcReg0 := v.extractLsb' 16 16 }
  | .modeCfg1 =>
    { s with cfg.modeReg1 := v.extractLsb' 0 16, cfg.dcReg1 := v.extractLsb' 16 16 }
  | .modeEn => { s with cfg.modeEn0 := v.getLsbD 0, cfg.modeEn1 := v.getLsbD 1 }
  | .tQuiet => { s with cfg.tQuiet := v.extractLsb' 0 16 }
  | .tTxn => { s with cfg.tTxn := v.extractLsb' 0 16 }
  | .tDrain => { s with cfg.tDrain := v.extractLsb' 0 16 }
  | .tPause => { s with cfg.tPause := v.extractLsb' 0 16 }
  | .tIdle => { s with cfg.tIdle := v.extractLsb' 0 16 }
  | .tListen => { s with cfg.tListen := v.extractLsb' 0 16 }
  | .cyclePeriod => { s with cfg.cyclePeriod := legalPeriod (v.extractLsb' 0 16) }
  | .tGap => { s with cfg.tGap := legalGap (v.extractLsb' 0 8) }
  | .ptRange p => { s with cfg.pt := s.cfg.pt.set p ((s.cfg.pt[p]).withRange v) }
  | .ptBase p => { s with cfg.pt := s.cfg.pt.set p ((s.cfg.pt[p]).withBase v) }
  | .hbuf i => { s with host.hbuf := memWrite s.host.hbuf i (v.extractLsb' 0 8) }
  | .hval i => { s with host.hval := memWrite s.host.hval i (v.extractLsb' 0 16) }
  | .id | .version | .status | .cmdStatus | .pres0 | .pres1 | .wqStatus | .modeStatus | .modeSlots
  | .cntFrames | .cntSnoopErr | .cntTxnOk | .cntTxnFail | .cntCycles | .cntAborts | .snoopLen
  | .snoopRes0 | .snoopRes1 | .cycleStatus | .snoopBuf _ | .vr _ => s

end Sys2Proof.Machine
end

