-- ==== Sys2Proof/Machine/Dispatch.lean ====
section
/-! DEFINITION. The meaning of each instruction, one arm a constructor. -/

namespace Sys2Proof.Machine

/-- `exec i s`: the effect of instruction `i` on the state `s`. -/
def exec (i : Instr) (s : State) : Host.Outcome State Fault Refusal :=
  match i with
  | .nop => Sys2Proof.Machine.execNop s
  | .crcInit => Sys2Proof.Machine.execCrcInit s
  | .crcByte b => Sys2Proof.Machine.execCrcByte b s
  | .crcBuf l => Sys2Proof.Machine.execCrcBuf l s
  | .bldRead l => Sys2Proof.Machine.execBldRead l s
  | .bldWrite l => Sys2Proof.Machine.execBldWrite l s
  | .bldAck l => Sys2Proof.Machine.execBldAck l s
  | .prsReq => Sys2Proof.Machine.execPrsReq s
  | .prsAns l => Sys2Proof.Machine.execPrsAns l s
  | .wqPush l => Sys2Proof.Machine.execWqPush l s
  | .modeReq z sub code => Sys2Proof.Machine.execModeReq z sub code s
  | .readRequest addr start count tail => Sys2Proof.Machine.execReadRequest addr start count tail s
  | .readAnswer addr vals => Sys2Proof.Machine.execReadAnswer addr vals s
  | .writeRequest addr start vals pad => Sys2Proof.Machine.execWriteRequest addr start vals pad s
  | .writeAck addr start n => Sys2Proof.Machine.execWriteAck addr start n s
  | .masterReadAnalog start count purpose => Sys2Proof.Machine.execMasterReadAnalog start count purpose s
  | .masterWriteAnalog start vals purpose => Sys2Proof.Machine.execMasterWriteAnalog start vals purpose s

end Sys2Proof.Machine
end

