-- ==== Sys2Proof/WellFormed.lean ====
section
/-! DEFINITION. Which instruction terms the hardware can hold: the frame bounds of R315 and the
argument ranges of R450. A host command is well formed at every operand value: a length out of range
is no encoding error (R302). -/

namespace Sys2Proof

/-- The bounds of each constructor's operands. -/
def Instr.wf : Instr → Bool
  | .nop => true
  | .crcInit => true
  | .crcByte _ => true
  | .crcBuf _ => true
  | .bldRead _ => true
  | .bldWrite _ => true
  | .bldAck _ => true
  | .prsReq => true
  | .prsAns _ => true
  | .wqPush _ => true
  | .modeReq _ _ _ => true
  | .readRequest _ _ _ tail => decide (tail.length ≤ 248)
  | .readAnswer _ vals => decide (1 ≤ vals.length ∧ vals.length ≤ Config.readCountMax)
  | .writeRequest _ _ vals _ => decide (vals.length ≤ Config.writeCountMax)
  | .writeAck _ _ _ => true
  | .masterReadAnalog _ count purpose =>
    decide (1 ≤ count.toNat ∧ count.toNat ≤ Config.readCountMax) &&
      match purpose with
      | .modeRead => decide (count = 1)
      | .partRead _ base => decide (base.toNat + count.toNat ≤ Config.vrWords)
  | .masterWriteAnalog _ vals purpose =>
    decide (1 ≤ vals.length ∧ vals.length ≤ Config.writeCountMax) &&
      match purpose with
      | .modeWrite => decide (vals.length = 1)
      | .drainWrite => true

/-- The instruction is well formed. -/
abbrev WellFormed (i : Instr) : Prop := i.wf = true

end Sys2Proof
end

