-- ==== Sys2Proof/Decode.lean ====
section
/-! DEFINITION. Encodings (30_encoding.md): the host command word of R301–R304 and the wire frames of
R310–R316. The decoder first, then the encoder. The sequencer's two operations have no encoding. -/

namespace Sys2Proof

open Machine

/-- Why a word or a frame is no instruction. -/
inductive DecodeError where
  /-- A CMD word that matches no row of R302 (R303). -/
  | illegalOp (w : Word)
  /-- A frame its parser rejects, with the parser's code (R501, R510, R515). -/
  | badFrame (code : Ferr)
deriving DecidableEq, Repr

/-- The two encoded forms: a word written to CMD, or the bytes of a frame, first on the wire first. -/
inductive Code where
  | word (w : Word)
  | frame (f : List Byte)
deriving DecidableEq, Repr

/-! ## Decoder -/

/-- The field OP = w[7:0] (R301). -/
def opField (w : Word) : Byte := w.extractLsb' 0 8

/-- The field B = w[15:8] (R301). -/
def bField (w : Word) : Byte := w.extractLsb' 8 8

/-- The field L = w[24:16] (R301). -/
def lField (w : Word) : BitVec 9 := w.extractLsb' 16 9

/-- The zone z = L[0] of MODE.REQ (R722). -/
def zoneField (w : Word) : Zone := if w.getLsbD 16 then .z1 else .z0

/-- The sub-field s = L[1] of MODE.REQ (R722). -/
def subField (w : Word) : SubField := if w.getLsbD 17 then .hotWater else .zoneMode

/-- One row of the opcode map: a word `w` is the command when `(w & mask) == pattern` (R302). -/
structure CommandRow where
  pattern : Word
  mask : Word
  operands : Word → Instr

/-- The opcode map of R302, row by row. -/
def commandRows : List CommandRow :=
  [ { pattern := 0x00000000#32, mask := 0xFFFFFFFF#32, operands := fun _ => .nop },
    { pattern := 0x00000001#32, mask := 0xFFFFFFFF#32, operands := fun _ => .crcInit },
    { pattern := 0x00000002#32, mask := 0xFFFF00FF#32, operands := fun w => .crcByte (bField w) },
    { pattern := 0x00000003#32, mask := 0xFE00FFFF#32, operands := fun w => .crcBuf (lField w) },
    { pattern := 0x00000010#32, mask := 0xFE00FFFF#32, operands := fun w => .bldRead (lField w) },
    { pattern := 0x00000011#32, mask := 0xFE00FFFF#32, operands := fun w => .bldWrite (lField w) },
    { pattern := 0x00000012#32, mask := 0xFE00FFFF#32, operands := fun w => .bldAck (lField w) },
    { pattern := 0x00000020#32, mask := 0xFFFFFFFF#32, operands := fun _ => .prsReq },
    { pattern := 0x00000021#32, mask := 0xFE00FFFF#32, operands := fun w => .prsAns (lField w) },
    { pattern := 0x00000030#32, mask := 0xFE00FFFF#32, operands := fun w => .wqPush (lField w) },
    { pattern := 0x00000031#32, mask := 0xFFFC00FF#32,
      operands := fun w => .modeReq (zoneField w) (subField w) (bField w) } ]

/-- The command a CMD word stands for, or its rejection (R302, R303). -/
def decodeCommand (w : Word) : Except DecodeError Instr :=
  match commandRows.find? (fun r => w &&& r.mask == r.pattern) with
  | some r => .ok (r.operands w)
  | none => .error (.illegalOp w)

/-- An observed frame read as a request (R501). -/
def decodeRequest (f : List Byte) : Except DecodeError Instr :=
  match parseSlaveRequest f.length f with
  | .error e => .error (.badFrame e)
  | .ok (.readIntent a s c) => .ok (.readRequest a s c (f.drop 8))
  | .ok (.writeIntent a s vs) => .ok (.writeRequest a s vs (f.length == 10 + 2 * vs.length))

/-- A frame read as a read answer, whatever its address and count (R311, R510). -/
def decodeAnswer (f : List Byte) : Except DecodeError Instr :=
  match parseAnswer f.length f (byteAt f 0) 0x03#8 ((byteAt f 2).toNat / 2) with
  | .error e => .error (.badFrame e)
  | .ok vs => .ok (.readAnswer (byteAt f 0) vs)

/-- A frame read as a write ack, whatever its address, start and count (R313, R515). -/
def decodeAck (f : List Byte) : Except DecodeError Instr :=
  let start := be16 (byteAt f 2) (byteAt f 3)
  match ackMatch f.length f (ackFrame (byteAt f 0) start (byteAt f 5)) with
  | .ok => .ok (.writeAck (byteAt f 0) start (byteAt f 5))
  | e => .error (.badFrame e)

/-- The instruction a frame stands for in its role, or its rejection by code. -/
def decodeFrame : FrameRole → List Byte → Except DecodeError Instr
  | .request, f => decodeRequest f
  | .answer, f => decodeAnswer f
  | .ack, f => decodeAck f

/-! ## Encoder -/

/-- A command word from its fields; bits [31:25] are 0 (R301). -/
def commandWord (op b : Byte) (l : BitVec 9) : Word := 0#7 ++ l ++ b ++ op

/-- L = z | (s << 1) of MODE.REQ (R722). -/
def modeReqL (z : Zone) (sub : SubField) : BitVec 9 :=
  match z, sub with
  | .z0, .zoneMode => 0#9
  | .z1, .zoneMode => 1#9
  | .z0, .hotWater => 2#9
  | .z1, .hotWater => 3#9

/-- The bytes of a wire frame (R310–R313). -/
def readRequestFrame (addr : Byte) (start count : U16) (tail : List Byte) : List Byte :=
  framed (readRequestHead addr start count) tail

/-- A write request with or without its 0x00 pad (R312, R505). -/
def writeRequestFrame (addr : Byte) (start : U16) (vals : List U16) (pad : Bool) : List Byte :=
  framed (writeRequestHead addr start vals.length ++ valueBytes vals)
    (if pad then [0x00#8] else [])

/-- The encoding of an instruction; none for the sequencer's operations, which the spec gives no
encoding (R302, R310–R313, R320). -/
def encode : Instr → Option Code
  | .nop => some (.word (commandWord 0x00#8 0#8 0#9))
  | .crcInit => some (.word (commandWord 0x01#8 0#8 0#9))
  | .crcByte b => some (.word (commandWord 0x02#8 b 0#9))
  | .crcBuf l => some (.word (commandWord 0x03#8 0#8 l))
  | .bldRead l => some (.word (commandWord 0x10#8 0#8 l))
  | .bldWrite l => some (.word (commandWord 0x11#8 0#8 l))
  | .bldAck l => some (.word (commandWord 0x12#8 0#8 l))
  | .prsReq => some (.word (commandWord 0x20#8 0#8 0#9))
  | .prsAns l => some (.word (commandWord 0x21#8 0#8 l))
  | .wqPush l => some (.word (commandWord 0x30#8 0#8 l))
  | .modeReq z sub code => some (.word (commandWord 0x31#8 code (modeReqL z sub)))
  | .readRequest a s c tail => some (.frame (readRequestFrame a s c tail))
  | .readAnswer a vs => some (.frame (answerFrame a vs))
  | .writeRequest a s vs pad => some (.frame (writeRequestFrame a s vs pad))
  | .writeAck a s n => some (.frame (ackFrame a s n))
  | .masterReadAnalog _ _ _ => none
  | .masterWriteAnalog _ _ _ => none

/-- The role in which an instruction's frame is read; commands and sequencer operations have none. -/
def frameRole : Instr → Option FrameRole
  | .readRequest _ _ _ _ => some .request
  | .writeRequest _ _ _ _ => some .request
  | .readAnswer _ _ => some .answer
  | .writeAck _ _ _ => some .ack
  | .nop => none
  | .crcInit => none
  | .crcByte _ => none
  | .crcBuf _ => none
  | .bldRead _ => none
  | .bldWrite _ => none
  | .bldAck _ => none
  | .prsReq => none
  | .prsAns _ => none
  | .wqPush _ => none
  | .modeReq _ _ _ => none
  | .masterReadAnalog _ _ _ => none
  | .masterWriteAnalog _ _ _ => none

/-- Decoding of an encoded form; a frame needs the role it is read in. -/
def decode (role : FrameRole) : Code → Except DecodeError Instr
  | .word w => decodeCommand w
  | .frame f => decodeFrame role f

/-! ## The opcode table's words -/

/-- `n` bytes of a number, the least significant first: the first byte on the wire is bits 7..0. -/
def tableBytes : Nat → Nat → List Byte
  | 0, _ => []
  | n + 1, w => BitVec.ofNat 8 w :: tableBytes n (w / 256)

/-- The first role in which a frame is an instruction: request, then ack, then answer. -/
def decodeAnyRole (f : List Byte) : Option Instr :=
  match decodeRequest f with
  | .ok i => some i
  | .error _ =>
    match decodeAck f with
    | .ok i => some i
    | .error _ => (decodeAnswer f).toOption

/-- The instruction of an opcode-table row's word: 32 bits are a CMD word, any other number of whole
bytes is a frame, its first byte in bits 7..0. -/
def decodeTableWord (nbits w : Nat) : Option Instr :=
  if nbits = 32 then
    if w < 4294967296 then (decodeCommand (BitVec.ofNat 32 w)).toOption else none
  else decodeAnyRole (tableBytes (nbits / 8) w)

end Sys2Proof
end

