-- ==== Sys2Proof/Machine/Events.lean ====
section
/-! DEFINITION. The handling of events (00_scope.md R18, 43_line_and_arbiter.md R551): where an
instruction is fetched and decoded, the time source (R19), and reset (70_reset_and_hazards.md R900).
`run` is what an instruction does; Step.lean gives it `exec`. -/

namespace Sys2Proof.Machine

/-- What a step answers. -/
abbrev Result : Type := Host.Outcome State Fault Refusal

/-! ## Host commands -/

/-- A write to CMD: CMD records the word, which is decoded and run, or ends with ILLEGAL_OP (R303,
R705, R730). -/
def issueCommand (run : Instr → State → Result) (w : Word) (s : State) : Result :=
  let s1 := { s with host.cmd := w }
  match decodeCommand w with
  | .ok i => run i s1
  | .error _ => .next (finish .illegalOp (beginCommand s1))

/-- `BusWrite(a, v)` (R203, R204, R212). -/
def busWrite (run : Instr → State → Result) (a : BitVec 14) (v : Word) (s : State) : Result :=
  match hostReg a with
  | none => .next s
  | some r => if r = .cmd then issueCommand run v s else .next (writeReg r v s)

/-! ## Received frames -/

/-- The instruction the open frame stands for, if its bytes decode in the role its owner gives it;
a frame with a framing error or more than 256 bytes is not parsed (R502, R503, R557). -/
def receivedInstr (s : State) : Option Instr :=
  if s.rx.ferr || decide (s.rx.len > Config.frameMax) then none
  else
    match openRole s with
    | none => none
    | some role => (decodeFrame role s.rx.buf).toOption

/-- The end of the open frame: the instruction runs; a frame that is none goes to its owner as it
stands, to be rejected by code or dropped (R557). -/
def frameEnd (run : Instr → State → Result) (s : State) : Result :=
  match receivedInstr s with
  | some i => run i s
  | none => .next (deliverFrame s.rx.len s.rx.buf s)

/-- The receiver part of a `tick_bit` (R553). -/
def receiveTick (run : Instr → State → Result) (s : State) : Result :=
  if s.rx.inFrame && !s.rx.active then
    settleNat (min (s.rx.gap + 1) Config.rxGapMax) fun g =>
      let s1 := { s with rx.gap := g }
      if s.cfg.tGap.toNat ≤ g then frameEnd run s1 else .next s1
  else .next s

/-- The time source counts a `tick_bit`. -/
def countBit (s : State) : State :=
  settleNat (s.bitTicks + 1) fun k => { s with bitTicks := k }

/-- The `tick_bit` handler: the transmitter, then the receiver (R581). -/
def tickBit (run : Instr → State → Result) (s : State) : Result :=
  receiveTick run (transmitTick (countBit s))

/-! ## Reset and time -/

/-- The `reset` event: every piece of the block's state takes its reset value and unspecified
contents are drawn anew; the environment keeps its script and the outputs it has seen (R170, R900). -/
def resetBlock (s : State) : State :=
  { State.reset with
    script := s.script
    outLog := s.outLog
    memEpoch := s.memEpoch + 1
    vrEpoch := s.vrEpoch + 1 }

/-- The next tick by R19: `tick_ms` at 48k, `tick_bit` at 5j + TICK_PHASE, `tick_bit` first when both
fall at the same time. -/
def nextTick (s : State) : Event :=
  if 5 * (s.bitTicks + 1) + Config.tickPhase.val ≤ 48 * (s.msTicks + 1) then .tickBit else .tickMs

/-! ## Events -/

/-- The handler of each event (R551). -/
def handle (run : Instr → State → Result) (e : Event) (s : State) : Result :=
  match e with
  | .tickMs => .next (tickMs s)
  | .tickBit => tickBit run s
  | .rxStart => .next (rxStart s)
  | .rxByte b ferr => .next (rxByte b ferr s)
  | .busWrite a v => busWrite run a v s
  | .busRead a => .next (busRead a s)
  | .reset => .next (resetBlock s)

/-- The next event: the environment's, or the time source's when it has none waiting (log 1). -/
def nextEvent (s : State) : Event × State :=
  match s.script with
  | e :: rest => (e, { s with script := rest })
  | [] => (nextTick s, s)

/-! ## Placing an instruction where it is fetched -/

/-- A command word about to be written to CMD (offset 0x01C). -/
def placeWord (w : Word) (s : State) : State :=
  { s with script := .busWrite 0x01C#14 w :: s.script }

/-- A received frame one `tick_bit` before the silence that ends it. -/
def placeFrame (f : List Byte) (s : State) : State :=
  { s with
    rx.active := false
    rx.inFrame := true
    rx.len := f.length
    rx.gap := s.cfg.tGap.toNat - 1
    rx.ferr := false
    rx.buf := f
    script := .tickBit :: s.script }

/-- A table word where step fetches it: 32 bits as a CMD word, other lengths as a frame. -/
def placeTableWord (nbits w : Nat) (s : State) : State :=
  if nbits = 32 then placeWord (BitVec.ofNat 32 w) s else placeFrame (tableBytes (nbits / 8) w) s

end Sys2Proof.Machine
end

