-- ==== Sys2Proof/Machine/Step.lean ====
section
/-! DEFINITION. One step of the machine: the next event is handled, whole (00_scope.md R18, R23). -/

namespace Sys2Proof.Machine

/-- One step: the next event, handled with `exec` as what an instruction does. -/
def step (s : State) : Host.Outcome State Fault Refusal :=
  handle exec (nextEvent s).1 (nextEvent s).2

/-- `s` with an opcode-table word placed where the next step fetches and runs it. -/
def State.withFetchWord (s : State) (nbits w : Nat) : State := placeTableWord nbits w s

end Sys2Proof.Machine
end

