-- ==== Sys2Proof/Safety.lean ====
section
/-! DEFINITION. What the statements are about: the vocabulary they share (10_state.md, 20_memory.md,
43_line_and_arbiter.md) and the invariant of the machine. -/

namespace Sys2Proof.Machine

/-! ## The address map -/

/-- The word addresses R210 lists as unmapped. -/
def unmapped (w : Nat) : Bool :=
  (decide (0x098 ≤ w) && decide (w < 0x100)) || (decide (0x140 ≤ w) && decide (w < 0x400)) ||
    (decide (0xA00 ≤ w) && decide (w < 0xC00)) || decide (0x1800 ≤ w)

/-- The words R210 marks RO. -/
def HostReg.readOnly : HostReg → Bool
  | .id | .version | .status | .cmdStatus | .pres0 | .pres1 | .wqStatus | .modeStatus | .modeSlots
  | .cntFrames | .cntSnoopErr | .cntTxnOk | .cntTxnFail | .cntCycles | .cntAborts | .snoopLen
  | .snoopRes0 | .snoopRes1 | .cycleStatus | .snoopBuf _ | .vr _ => true
  | .ctrl | .irqStatus | .irqEnable | .slaveAddr | .cmd | .arg | .hlen | .crcAcc | .modeCfg0
  | .modeCfg1 | .modeEn | .tQuiet | .tTxn | .tDrain | .tPause | .tIdle | .tListen | .cyclePeriod
  | .tGap | .ptRange _ | .ptBase _ | .hbuf _ | .hval _ => false

/-- The configuration registers of R904: SLAVE_ADDR, T_*, CYCLE_PERIOD_S, T_GAP_BITS, MODE_CFG,
MODE_EN, the partition table and IRQ_ENABLE. -/
def HostReg.isSetting : HostReg → Bool
  | .slaveAddr | .modeCfg0 | .modeCfg1 | .modeEn | .tQuiet | .tTxn | .tDrain | .tPause | .tIdle
  | .tListen | .cyclePeriod | .tGap | .ptRange _ | .ptBase _ | .irqEnable => true
  | .id | .version | .ctrl | .status | .irqStatus | .cmd | .cmdStatus | .arg | .hlen
  | .crcAcc | .pres0 | .pres1 | .wqStatus | .modeStatus | .modeSlots | .cntFrames | .cntSnoopErr
  | .cntTxnOk | .cntTxnFail | .cntCycles | .cntAborts | .snoopLen | .snoopRes0 | .snoopRes1
  | .cycleStatus | .hbuf _ | .hval _ | .snoopBuf _ | .vr _ => false

/-- What a read of a RW or WARL word returns after `v` was written to it, by the bits and legal values
of its rule (R106–R112, R117–R125, R135–R137). CTRL, IRQ_STATUS and PT_BASE depend on the state too
and CMD issues a command: they are not in this list. -/
def readBack (r : HostReg) (v : Word) : Option Word :=
  match r with
  | .irqEnable => some (v &&& 0x1FF#32)
  | .slaveAddr => some (v &&& 0xFF#32)
  | .arg | .modeCfg0 | .modeCfg1 => some v
  | .hlen => some (if (v &&& 0x1FF#32).toNat > 256 then 256#32 else v &&& 0x1FF#32)
  | .modeEn => some (v &&& 3#32)
  | .crcAcc | .tQuiet | .tTxn | .tDrain | .tPause | .tIdle | .tListen | .hval _ =>
    some (v &&& 0xFFFF#32)
  | .cyclePeriod => some (if (v &&& 0xFFFF#32).toNat < 10 then 10#32 else v &&& 0xFFFF#32)
  | .tGap => some (if v &&& 0xFF#32 = 0#32 then 1#32 else v &&& 0xFF#32)
  | .ptRange _ => some (v &&& 0x7FFFFF#32)
  | .hbuf _ => some (v &&& 0xFF#32)
  | .ctrl | .irqStatus | .cmd | .ptBase _ => none
  | .id | .version | .status | .cmdStatus | .pres0 | .pres1 | .wqStatus | .modeStatus | .modeSlots
  | .cntFrames | .cntSnoopErr | .cntTxnOk | .cntTxnFail | .cntCycles | .cntAborts | .snoopLen
  | .snoopRes0 | .snoopRes1 | .cycleStatus | .snoopBuf _ | .vr _ => none

/-! ## Encodings -/

/-- The command words R303 calls illegal: an unassigned opcode, a nonzero field its opcode does not
use, or a bit set in [31:25]. -/
def illegalWord (w : Word) : Bool :=
  let op := w.extractLsb' 0 8
  let b := w.extractLsb' 8 8
  let l := w.extractLsb' 16 9
  !([0x00#8, 0x01#8, 0x02#8, 0x03#8, 0x10#8, 0x11#8, 0x12#8, 0x20#8, 0x21#8, 0x30#8,
      0x31#8].contains op) ||
    w.extractLsb' 25 7 != 0#7 ||
    (op != 0x02#8 && op != 0x31#8 && b != 0#8) ||
    ([0x00#8, 0x01#8, 0x02#8, 0x20#8].contains op && l != 0#9) ||
    (op == 0x31#8 && l.extractLsb' 2 7 != 0#7)

/-- The CERR code of a command word with `queued` entries in the write queue: the cause column of
R802, ILLEGAL_OP first and BAD_RANGE before WQ_FULL (R812). -/
def wordError (w : Word) (queued : Nat) : Cerr :=
  let op := w.extractLsb' 0 8
  let l := (w.extractLsb' 16 9).toNat
  if illegalWord w then .illegalOp
  else if op = 0x03#8 ∧ 256 < l then .badRange
  else if op = 0x10#8 ∧ ¬(1 ≤ l ∧ l ≤ 125) then .badRange
  else if op = 0x11#8 ∧ ¬(1 ≤ l ∧ l ≤ 123) then .badRange
  else if op = 0x12#8 ∧ 255 < l then .badRange
  else if op = 0x30#8 ∧ ¬(1 ≤ l ∧ l ≤ 123) then .badRange
  else if op = 0x30#8 ∧ queued = 8 then .wqFull
  else .ok

/-- `l` with bit `j` of byte `i` inverted. -/
def flipBit (l : List Byte) (i j : Nat) : List Byte :=
  l.set i (byteAt l i ^^^ (1#8 <<< j))

/-- An instruction that a CMD word can encode (R302). -/
def isCommand (i : Instr) : Bool :=
  match encode i with
  | some (.word _) => true
  | some (.frame _) => false
  | none => false

/-- The request a transaction sends (R601). -/
def requestOf (t : Txn) : List Byte :=
  match t.op with
  | .read count _ => buildReadRequest t.addr t.start count
  | .write vals _ => buildWriteRequest t.addr t.start vals

/-- The receiver with no frame open; a character in progress stays so (R557). -/
def Receiver.idle (r : Receiver) : Receiver :=
  { active := r.active, inFrame := false, len := 0, gap := 0, ferr := false, owner := .snoop,
    buf := [] }

/-! ## Changes of the arbiter -/

/-- A CTRL write that asks for a stop: EN goes 1 → 0, or REINIT is written 1 (R575). -/
def stopWrite (e : Event) (s : State) : Prop :=
  ∃ a v, e = .busWrite a v ∧ hostReg a = some .ctrl ∧
    ((s.en = true ∧ v.getLsbD 0 = false) ∨ v.getLsbD 1 = true)

/-- The changes of `arb` that R570's table lists, with the event and the conditions of each row. `e` is
the event handled in `s`. The rows to INIT: a reset (R900), a stop request with no transaction in
flight (R575, R577), or the event that ends the transaction a stop waits for. -/
def arbChange (e : Event) (s : State) : Arb → Arb → Prop
  | .init, .slave => (∃ b ferr, e = .rxByte b ferr) ∧ s.en = true ∧ s.rx.inFrame = false
  | .master, .slave =>
    ((∃ b ferr, e = .rxByte b ferr) ∧ s.seq = .listen ∧ s.en = true ∧ s.rx.inFrame = false) ∨
      (((∃ b ferr, e = .rxByte b ferr) ∨ e = .rxStart) ∧ (s.seq = .guard ∨ s.seq = .pause))
  | .slave, .master =>
    e = .tickMs ∧ s.en = true ∧ s.rx.active = false ∧ s.rx.inFrame = false ∧
      s.cfg.tQuiet.toNat < satInc s.quietMs
  | .slave, .init => e = .reset ∨ stopWrite e s
  | .master, .init =>
    e = .reset ∨ (stopWrite e s ∧ inTxn s = false) ∨
      ((e = .tickMs ∨ e = .tickBit) ∧ s.seq = .wait ∧ s.stopPending.isSome = true)
  | .init, .master => False
  | .init, .init | .slave, .slave | .master, .master => False

/-! ## The invariant -/

/-- The memories hold only their own words, in canonical form. -/
structure MemoryInv (s : State) : Prop where
  hbuf : Memory.wf s.host.hbuf = true ∧ memBelow 256 s.host.hbuf = true
  hval : Memory.wf s.host.hval = true ∧ memBelow Config.hvalWords s.host.hval = true
  snoop : Memory.wf s.snoop.buf = true ∧ memBelow 256 s.snoop.buf = true
  vr : Memory.wf s.vr = true ∧ memBelow Config.vrWords s.vr = true

/-- The ranges 10_state.md gives: WARL registers hold legal values (R111, R124, R125), the queue has
at most 8 entries of 1 to 123 values (R134), the millisecond counters do not pass 2^32 − 1 (R831). -/
structure RangeInv (s : State) : Prop where
  hlen : s.host.hlen.toNat ≤ 256
  period : 10 ≤ s.cfg.cyclePeriod.toNat
  gap : 1 ≤ s.cfg.tGap.toNat
  wqLength : s.wq.length ≤ Config.wqDepth
  wqVals : ∀ e ∈ s.wq, 1 ≤ e.vals.length ∧ e.vals.length ≤ Config.writeCountMax
  quiet : s.quietMs ≤ Config.timerMax
  since : s.cyc.sinceMs ≤ Config.timerMax
  listen : s.listenMs ≤ Config.timerMax
  drain : s.drainMs ≤ Config.timerMax
  pause : s.pauseMs ≤ Config.timerMax
  txn : s.txnMs ≤ Config.timerMax

/-- The receiver (R132, R554–R557): RXB holds the first 256 bytes of the open frame, and with no
frame open the frame's fields are at rest. A frame open in the answer window is the answer, and an
answer is open in no other state (R555). -/
structure ReceiverInv (s : State) : Prop where
  len : s.rx.len ≤ Config.rxLenMax
  gap : s.rx.gap ≤ Config.rxGapMax
  stored : s.rx.buf.length = min s.rx.len Config.frameMax
  nonempty : s.rx.inFrame = true → 1 ≤ s.rx.len
  closed : s.rx.inFrame = false → s.rx.len = 0 ∧ s.rx.gap = 0 ∧ s.rx.ferr = false ∧ s.rx.owner = .snoop
  answer : s.rx.inFrame = true → (s.rx.owner = .answer ↔ s.seq = .wait)

/-- The position of the sequencer (R160): which unit, step and waiting state go with a transaction. -/
def positionInv (s : State) : TxnOp → U16 → Prop
  | .read count .modeRead, start =>
    (s.unit = .mode0 ∨ s.unit = .mode1) ∧ s.step = 0 ∧ count = 1#16 ∧ start = s.run.modeReg
  | .read count (.partRead _ base), _ =>
    s.unit = .read ∧ s.step = 0 ∧ 1 ≤ count.toNat ∧ count.toNat ≤ Config.readCountMax ∧
      base.toNat + count.toNat ≤ Config.vrWords ∧ (s.cyc.active = true ∨ s.txnDiscard = true) ∧
      irqSet .cycleDone s = false
  | .write vals .modeWrite, start =>
    (s.unit = .mode0 ∨ s.unit = .mode1) ∧
      ∃ v, vals = [v] ∧ program s.run s.step = some (.write start v)
  | .write vals .drainWrite, start =>
    s.unit = .drain ∧ s.step = 0 ∧ s.wq.head? = some { start := start, vals := vals }

/-- The transmitter and the transaction (R133, R600, R601): `de` is on exactly in TX, a transaction
exists exactly in GUARD, TX and WAIT, and TXB holds its request. -/
structure TransactionInv (s : State) : Prop where
  de : s.tx.de = true ↔ s.seq = .tx
  present : s.txn.isSome = true ↔ s.seq = .guard ∨ s.seq = .tx ∨ s.seq = .wait
  sending : s.seq = .tx → 1 ≤ s.tx.bits ∧ s.tx.bits ≤ Config.charBits * s.tx.buf.length ∧
    s.rx.active = false ∧ s.rx.inFrame = false
  idle : s.seq ≠ .tx → s.tx.bits = 0
  request : ∀ t, s.txn = some t → s.tx.buf = requestOf t
  ack : ∀ t vals purpose, s.txn = some t → t.op = .write vals purpose →
    s.ackExp = ackFrame t.addr t.start (BitVec.ofNat 8 vals.length)
  position : ∀ t, s.txn = some t → positionInv s t.op t.start
  discard : s.txnDiscard = true → partReadInFlight s = true

/-- The arbiter and the sequencer (R160, R571, R573, R575, R653): outside MASTER the sequencer is OFF,
outside a turn unit and step are at rest, a stop waits only for a transaction, and with EN = 0 the
arbiter is in INIT or a stop is waiting. -/
structure ArbiterInv (s : State) : Prop where
  master : s.arb = .master ↔ s.seq ≠ .off
  rest : s.seq = .off ∨ s.seq = .listen → s.unit = .mode0 ∧ s.step = 0
  pause : s.seq = .pause →
    (s.unit = .mode0 ∨ s.unit = .mode1) ∧ program s.run s.step = some .pause
  stop : s.stopPending.isSome = true → inTxn s = true
  enable : s.en = false → s.arb = .init ∨ s.stopPending.isSome = true
  /-- While CYCLE_DONE = 1 no read cycle is active (R912). -/
  cycle : irqSet .cycleDone s = true → s.cyc.active = false

/-- The invariant of the machine. -/
structure Inv (s : State) : Prop where
  memory : MemoryInv s
  range : RangeInv s
  receiver : ReceiverInv s
  transaction : TransactionInv s
  arbiter : ArbiterInv s

end Sys2Proof.Machine
end

