-- ==== Sys2Proof/Certificates/Slice0/Obligations.lean ====
section
/-! DEFINITION. The statements for the provers, in the order of the spec's files. -/

open Sys2Proof Sys2Proof.Machine

/-! ## Reset (10_state.md R170, 70_reset_and_hazards.md R900) -/

/-- R170: what every register, memory, piece of internal state and output holds after reset. Words
the rule leaves unspecified hold the free value of their draw. -/
def Obligations.ResetValuesAsTabled : Prop :=
  (∀ p ∈ ([(0x000, 0x4D425255), (0x004, 0x00010000), (0x008, 0), (0x00C, 0), (0x010, 0), (0x014, 0),
      (0x018, 0x0A), (0x01C, 0), (0x020, 0), (0x024, 0), (0x028, 0), (0x02C, 0xFFFF), (0x030, 0),
      (0x034, 0), (0x038, 0x200), (0x03C, 0), (0x040, 0), (0x044, 0), (0x048, 0), (0x04C, 0)] ++
      [(0x050, 5000), (0x054, 2500), (0x058, 2000), (0x05C, 500), (0x060, 100), (0x064, 500),
      (0x068, 60), (0x06C, 35), (0x070, 0), (0x074, 0), (0x078, 0), (0x07C, 0), (0x080, 0),
      (0x084, 0), (0x088, 0), (0x08C, 0), (0x090, 0), (0x094, 0)] : List (Nat × Nat)),
    busReadData (BitVec.ofNat 14 p.1) State.reset = BitVec.ofNat 32 p.2) ∧
  (∀ p : Fin 8, ptRangeWord p State.reset = 0#32 ∧ ptBaseWord p State.reset = 0#32) ∧
  (∀ i, hbufAt State.reset i = Config.hbufFree State.reset.memEpoch i ∧
    hvalAt State.reset i = Config.hvalFree State.reset.memEpoch i ∧
    snoopAt State.reset i = Config.snoopFree State.reset.memEpoch i ∧
    vrValid State.reset i = false ∧ vrValue State.reset i = Config.vrFree State.reset.vrEpoch i) ∧
  State.reset.arb = .init ∧ State.reset.seq = .off ∧ State.reset.unit = .mode0 ∧
  State.reset.step = 0 ∧ State.reset.quietMs = 0 ∧ State.reset.listenMs = 0 ∧
  State.reset.drainMs = 0 ∧ State.reset.pauseMs = 0 ∧ State.reset.txnMs = 0 ∧
  State.reset.cyc.sinceMs = 0 ∧
  (State.reset.rx.active = false ∧ State.reset.rx.inFrame = false ∧ State.reset.rx.len = 0 ∧
    State.reset.rx.gap = 0 ∧ State.reset.rx.ferr = false ∧ State.reset.rx.owner = .snoop) ∧
  (State.reset.tx.de = false ∧ State.reset.tx.buf.length = 0 ∧ State.reset.tx.bits = 0) ∧
  State.reset.wq = [] ∧
  (∀ b ∈ [State.reset.slots0.zone, State.reset.slots0.hot, State.reset.slots1.zone,
    State.reset.slots1.hot], b = { pend := false, code := 0#8, dirty := false }) ∧
  State.reset.run = { latZ := false, latH := false, zcode := 0#8, hcode := 0#8, val := 0#16,
                      af := false, modeReg := 0#16, dcReg := 0#16 } ∧
  (State.reset.cyc.active = false ∧ State.reset.cyc.doneMask = 0#8 ∧
    State.reset.cyc.valid = false ∧ State.reset.cyc.refreshReq = false) ∧
  State.reset.stopPending = none ∧ State.reset.txnDiscard = false ∧ State.reset.ansSeen = false ∧
  State.reset.lastErr = .ok ∧ State.reset.lastAbort = .none ∧
  deOut State.reset = false ∧ irqOut State.reset = false ∧ txLevel State.reset = true

/-- The `reset` event gives every piece of the block's state its reset value within the event, from
every state; what was unspecified is drawn anew, and only the environment's script and the outputs
already given stay (log 10). -/
def Obligations.ResetEventRestoresEverything : Prop :=
  ∀ s : State, ∃ t : State, handle exec .reset s = .next t ∧
    t.memEpoch ≠ s.memEpoch ∧ t.vrEpoch ≠ s.vrEpoch ∧
    t = { State.reset with
      script := s.script, outLog := s.outLog, memEpoch := t.memEpoch, vrEpoch := t.vrEpoch }

/-! ## The host bus (20_memory.md R204–R212, 10_state.md R102–R135) -/

/-- R210: the word each mapped offset selects, and which words are mapped. -/
def Obligations.AddressMapAsTabled : Prop :=
  (∀ p ∈ ([(0x000, .id), (0x004, .version), (0x008, .ctrl), (0x00C, .status), (0x010, .irqStatus),
      (0x014, .irqEnable), (0x018, .slaveAddr), (0x01C, .cmd), (0x020, .cmdStatus), (0x024, .arg),
      (0x028, .hlen), (0x02C, .crcAcc), (0x030, .pres0), (0x034, .pres1), (0x038, .wqStatus),
      (0x03C, .modeStatus), (0x040, .modeSlots), (0x044, .modeCfg0), (0x048, .modeCfg1),
      (0x04C, .modeEn)] ++
      [(0x050, .tQuiet), (0x054, .tTxn), (0x058, .tDrain), (0x05C, .tPause), (0x060, .tIdle),
      (0x064, .tListen), (0x068, .cyclePeriod), (0x06C, .tGap), (0x070, .cntFrames),
      (0x074, .cntSnoopErr), (0x078, .cntTxnOk), (0x07C, .cntTxnFail), (0x080, .cntCycles),
      (0x084, .cntAborts), (0x088, .snoopLen), (0x08C, .snoopRes0), (0x090, .snoopRes1),
      (0x094, .cycleStatus)] : List (Nat × HostReg)),
    hostReg (BitVec.ofNat 14 p.1) = some p.2) ∧
  (∀ p : Fin 8, hostReg (BitVec.ofNat 14 (0x100 + 8 * p.val)) = some (.ptRange p) ∧
    hostReg (BitVec.ofNat 14 (0x104 + 8 * p.val)) = some (.ptBase p)) ∧
  (∀ i, i < 256 → hostReg (BitVec.ofNat 14 (0x400 + 4 * i)) = some (.hbuf i)) ∧
  (∀ i, i < 128 → hostReg (BitVec.ofNat 14 (0x800 + 4 * i)) = some (.hval i)) ∧
  (∀ i, i < 256 → hostReg (BitVec.ofNat 14 (0xC00 + 4 * i)) = some (.snoopBuf i)) ∧
  (∀ i, i < 512 → hostReg (BitVec.ofNat 14 (0x1000 + 4 * i)) = some (.vr i)) ∧
  ∀ a : BitVec 14, hostReg a = none ↔ unmapped (wordAddress a) = true

/-- R204, R205: an unmapped word reads 0 and a write to it is ignored; no access to any address ends in
a fault or a refusal; address bits [1:0] are ignored. -/
def Obligations.UnmappedAndUnalignedAccesses : Prop :=
  (∀ (a : BitVec 14) (v : Word) (s : State), unmapped (wordAddress a) = true →
    handle exec (.busRead a) s = .next { s with outLog := s.outLog ++ [.busData 0#32] } ∧
    handle exec (.busWrite a v) s = .next s) ∧
  (∀ (a : BitVec 14) (v : Word) (s : State),
    (∃ t, handle exec (.busRead a) s = .next t) ∧ ∃ t, handle exec (.busWrite a v) s = .next t) ∧
  ∀ (a : BitVec 14) (v : Word) (s : State),
    handle exec (.busRead a) s = handle exec (.busRead (a &&& 0x3FFC#14)) s ∧
    handle exec (.busWrite a v) s = handle exec (.busWrite (a &&& 0x3FFC#14) v) s

/-- R211: a read gives its data to the host and changes nothing else; after any word is written to CMD,
legal or not, CMD reads as that word. -/
def Obligations.ReadsChangeNothing : Prop :=
  (∀ (a : BitVec 14) (s : State),
    handle exec (.busRead a) s =
      .next { s with outLog := s.outLog ++ [.busData (busReadData a s)] }) ∧
  ∀ (w : Word) (s : State), ∃ t, handle exec (.busWrite 0x01C#14 w) s = .next t ∧
    busReadData 0x01C#14 t = w

/-- R102, R212: a write to a word R210 marks RO is ignored, and a read of one returns its fields, each
at its place (R104, R109, R113–R116, R126–R129, R138, R140) with the codes of R801 and R802; CTRL reads
back EN alone (R103) and IRQ_STATUS its flags (R105, R820); a read of a RW or WARL word returns its
fields too, and after a write the value written, with reserved bits 0 and illegal values replaced. The
legal value is judged on the field's own bits (log 9). -/
def Obligations.AccessTypesOfRegisters : Prop :=
  (∀ (a : BitVec 14) (r : HostReg) (v : Word) (s : State),
    hostReg a = some r → r.readOnly = true → handle exec (.busWrite a v) s = .next s) ∧
  (∀ (a : BitVec 14) (r : HostReg) (v w : Word) (s : State),
    hostReg a = some r → readBack r v = some w →
    ∃ t, handle exec (.busWrite a v) s = .next t ∧ busReadData a t = w) ∧
  (∀ s : State, busReadData 0x000#14 s = 0x4D425255#32 ∧ busReadData 0x004#14 s = 0x00010000#32 ∧
    busReadData 0x008#14 s = if s.en = true then 1#32 else 0#32) ∧
  (∀ s : State, let w := busReadData 0x010#14 s
    w.extractLsb' 0 9 = s.irqStatus ∧ w.extractLsb' 9 23 = 0#23 ∧
    ∀ p ∈ ([(0, .cycleDone), (1, .txnFail), (2, .turnAbort), (3, .snoopOk), (4, .snoopErr),
        (5, .stateChg), (6, .modeDone), (7, .wqEmpty), (8, .cmdErr)] : List (Nat × IrqFlag)),
      w.getLsbD p.1 = irqSet p.2 s) ∧
  (∀ s : State, (busReadData 0x020#14 s).extractLsb' 0 4 = match s.host.cerr with
    | .ok => 0#4
    | .illegalOp => 1#4
    | .badRange => 2#4
    | .wqFull => 3#4) ∧
  (∀ s : State, let w := busReadData 0x00C#14 s
    let turn := s.seq = .guard ∨ s.seq = .tx ∨ s.seq = .wait ∨ s.seq = .pause
    w.extractLsb' 0 2 = (match s.arb with
      | .init => 0#2
      | .slave => 1#2
      | .master => 2#2) ∧
    (w.getLsbD 2 = true ↔ turn) ∧ (w.getLsbD 3 = true ↔ s.seq = .tx ∨ s.seq = .wait) ∧
    w.getLsbD 4 = s.cyc.active ∧ w.getLsbD 5 = s.cyc.refreshReq ∧
    w.getLsbD 6 = s.rx.inFrame ∧ w.getLsbD 7 = s.cyc.valid ∧
    w.extractLsb' 12 2 = (match s.lastAbort with
      | .none => 0#2
      | .activity => 1#2
      | .stop => 2#2
      | .reinit => 3#2) ∧
    w.getLsbD 14 = s.tx.de ∧ (w.getLsbD 15 = true ↔ s.stopPending ≠ none) ∧
    w.extractLsb' 16 4 = (match s.seq with
      | .off => 0#4
      | .listen => 1#4
      | .guard => 2#4
      | .tx => 3#4
      | .wait => 4#4
      | .pause => 5#4) ∧
    (turn → w.extractLsb' 20 2 = match s.unit with
      | .mode0 => 0#2
      | .mode1 => 1#2
      | .drain => 2#2
      | .read => 3#2) ∧
    (¬turn → w.extractLsb' 20 2 = 0#2) ∧
    w.extractLsb' 22 3 = BitVec.ofNat 3 s.step ∧ w.extractLsb' 25 7 = 0#7) ∧
  (∀ p ∈ ([(0, .ok), (1, .feLen), (2, .feAddr), (3, .feFunc), (4, .feBcount), (5, .feTotlen),
      (6, .feCrc), (7, .piBcount), (8, .feUart), (9, .ackMismatch), (10, .teTimeout)] :
      List (Nat × Ferr)), ∀ s : State,
    (s.lastErr = p.2 → (busReadData 0x00C#14 s).extractLsb' 8 4 = BitVec.ofNat 4 p.1) ∧
    (s.host.ferr = p.2 → (busReadData 0x020#14 s).extractLsb' 4 28 = BitVec.ofNat 28 p.1) ∧
    (s.snoop.ferr = p.2 → (busReadData 0x088#14 s).extractLsb' 12 4 = BitVec.ofNat 4 p.1)) ∧
  (∀ s : State, let w := busReadData 0x038#14 s
    w.extractLsb' 0 4 = BitVec.ofNat 4 s.wq.length ∧ w.extractLsb' 4 4 = 0#4 ∧
    (w.getLsbD 8 = true ↔ s.wq.length = 8) ∧ (w.getLsbD 9 = true ↔ s.wq = []) ∧
    w.extractLsb' 10 22 = 0#22) ∧
  (∀ s : State, let w := busReadData 0x03C#14 s
    w.getLsbD 0 = s.slots0.zone.pend ∧ w.getLsbD 1 = s.slots0.hot.pend ∧
    w.getLsbD 2 = s.slots1.zone.pend ∧ w.getLsbD 3 = s.slots1.hot.pend ∧
    w.extractLsb' 4 28 = 0#28) ∧
  (∀ s : State, let w := busReadData 0x040#14 s
    w.extractLsb' 0 8 = s.slots0.zone.code ∧ w.extractLsb' 8 8 = s.slots0.hot.code ∧
    w.extractLsb' 16 8 = s.slots1.zone.code ∧ w.extractLsb' 24 8 = s.slots1.hot.code) ∧
  (∀ s : State, let w := busReadData 0x088#14 s
    w.extractLsb' 0 9 = s.snoop.len ∧ w.getLsbD 9 = s.snoop.ovf ∧ w.getLsbD 10 = s.snoop.uerr ∧
    w.getLsbD 11 = false ∧ w.extractLsb' 16 16 = 0#16) ∧
  (∀ s : State, let w := busReadData 0x094#14 s
    w.extractLsb' 0 8 = s.cyc.doneMask ∧ w.extractLsb' 16 16 = 0#16) ∧
  (∀ s : State, ∀ p ∈ [(0x030#14, 0x034#14, s.host.pres), (0x08C#14, 0x090#14, s.snoop.res)],
    let w := busReadData p.1 s
    let w1 := busReadData p.2.1 s
    w.extractLsb' 0 2 = (match p.2.2.kind with
      | .none => 0#2
      | .readIntent => 1#2
      | .writeIntent => 2#2
      | .answer => 3#2) ∧
    w.extractLsb' 2 6 = 0#6 ∧ w.extractLsb' 8 8 = p.2.2.addr ∧ w.extractLsb' 16 8 = p.2.2.func ∧
    w.extractLsb' 24 8 = 0#8 ∧ w1.extractLsb' 0 16 = p.2.2.start ∧
    w1.extractLsb' 16 16 = p.2.2.count) ∧
  (∀ s : State, busReadData 0x070#14 s = s.cnt.frames ∧ busReadData 0x074#14 s = s.cnt.snoopErr ∧
    busReadData 0x078#14 s = s.cnt.txnOk ∧ busReadData 0x07C#14 s = s.cnt.txnFail ∧
    busReadData 0x080#14 s = s.cnt.cycles ∧ busReadData 0x084#14 s = s.cnt.aborts) ∧
  (∀ s : State, busReadData 0x014#14 s = s.irqEnable.setWidth 32 ∧
    busReadData 0x018#14 s = s.cfg.slaveAddr.setWidth 32 ∧
    busReadData 0x028#14 s = s.host.hlen.setWidth 32 ∧
    busReadData 0x02C#14 s = s.host.crcAcc.setWidth 32 ∧
    busReadData 0x050#14 s = s.cfg.tQuiet.setWidth 32 ∧
    busReadData 0x054#14 s = s.cfg.tTxn.setWidth 32 ∧
    busReadData 0x058#14 s = s.cfg.tDrain.setWidth 32 ∧
    busReadData 0x05C#14 s = s.cfg.tPause.setWidth 32 ∧
    busReadData 0x060#14 s = s.cfg.tIdle.setWidth 32 ∧
    busReadData 0x064#14 s = s.cfg.tListen.setWidth 32 ∧
    busReadData 0x068#14 s = s.cfg.cyclePeriod.setWidth 32 ∧
    busReadData 0x06C#14 s = s.cfg.tGap.setWidth 32) ∧
  (∀ s : State, let arg := busReadData 0x024#14 s
    let cfg0 := busReadData 0x044#14 s
    let cfg1 := busReadData 0x048#14 s
    let en := busReadData 0x04C#14 s
    (arg.extractLsb' 0 16 = s.host.argStart ∧ arg.extractLsb' 16 8 = s.host.argAddr ∧
      arg.extractLsb' 24 8 = s.host.argFunc) ∧
    (cfg0.extractLsb' 0 16 = s.cfg.modeReg0 ∧ cfg0.extractLsb' 16 16 = s.cfg.dcReg0) ∧
    (cfg1.extractLsb' 0 16 = s.cfg.modeReg1 ∧ cfg1.extractLsb' 16 16 = s.cfg.dcReg1) ∧
    en.getLsbD 0 = s.cfg.modeEn0 ∧ en.getLsbD 1 = s.cfg.modeEn1 ∧ en.extractLsb' 2 30 = 0#30) ∧
  (∀ (a : BitVec 14) (p : Fin 8) (s : State), hostReg a = some (.ptRange p) →
    (busReadData a s).extractLsb' 0 16 = s.cfg.pt[p].start ∧
    (busReadData a s).extractLsb' 16 7 = s.cfg.pt[p].count ∧
    (busReadData a s).extractLsb' 23 9 = 0#9) ∧
  ∀ (a : BitVec 14) (i : Nat) (s : State),
    (hostReg a = some (.hbuf i) → busReadData a s = (hbufAt s i).setWidth 32) ∧
    (hostReg a = some (.hval i) → busReadData a s = (hvalAt s i).setWidth 32) ∧
    (hostReg a = some (.snoopBuf i) → (busReadData a s).extractLsb' 0 8 = snoopAt s i ∧
      (busReadData a s).extractLsb' 8 24 = 0#24) ∧
    (hostReg a = some (.vr i) → (busReadData a s).extractLsb' 0 16 = vrValue s i ∧
      (busReadData a s).getLsbD 16 = vrValid s i ∧ (busReadData a s).extractLsb' 17 15 = 0#15)

/-- R212: a configuration register (R904), ARG, HLEN, CRC_ACC, HBUF and HVAL only store the value
written: every other register, every other word and all other state stay. Only the EN bit that PT_BASE[p] reads, the effective value,
may follow a write to PT_RANGE[p]; the BASE and EN stored stay. HLEN is judged on its own bits (log 9). -/
def Obligations.HostWritesStayInPlace : Prop :=
  (∀ (a : BitVec 14) (r : HostReg) (v : Word) (s : State),
    hostReg a = some r → r.isSetting = true →
    ∃ t, handle exec (.busWrite a v) s = .next t ∧
      (if r = .irqEnable then t = { s with irqEnable := v.extractLsb' 0 9 }
       else t = { s with cfg := t.cfg }) ∧
      ∀ q : HostReg, q.isSetting = true → q ≠ r →
        (∀ p, r = .ptRange p → q = .ptBase p →
          t.cfg.pt[p].base = s.cfg.pt[p].base ∧ t.cfg.pt[p].en = s.cfg.pt[p].en) ∧
        ((∀ p, r = .ptRange p → q ≠ .ptBase p) → readReg q t = readReg q s)) ∧
  (∀ (a : BitVec 14) (v : Word) (s : State),
    (hostReg a = some .arg → handle exec (.busWrite a v) s = .next { s with
      host := { s.host with
        argStart := v.extractLsb' 0 16, argAddr := v.extractLsb' 16 8
        argFunc := v.extractLsb' 24 8 } }) ∧
    (hostReg a = some .hlen → handle exec (.busWrite a v) s = .next { s with
      host := { s.host with
        hlen := if 256 < (v.extractLsb' 0 9).toNat then 256#9 else v.extractLsb' 0 9 } }) ∧
    (hostReg a = some .crcAcc → handle exec (.busWrite a v) s = .next { s with
      host := { s.host with crcAcc := v.extractLsb' 0 16 } })) ∧
  (∀ (a : BitVec 14) (i : Nat) (v : Word) (s : State), hostReg a = some (.hbuf i) →
    ∃ t, handle exec (.busWrite a v) s = .next t ∧
      t = { s with host := { s.host with hbuf := t.host.hbuf } } ∧
      ∀ j, hbufAt t j = if j = i then v.extractLsb' 0 8 else hbufAt s j) ∧
  ∀ (a : BitVec 14) (i : Nat) (v : Word) (s : State), hostReg a = some (.hval i) →
    ∃ t, handle exec (.busWrite a v) s = .next t ∧
      t = { s with host := { s.host with hval := t.host.hval } } ∧
      ∀ j, hvalAt t j = if j = i then v.extractLsb' 0 16 else hvalAt s j

/-- R129, R135: on the bus EFF_EN in CYCLE_STATUS and EN in PT_BASE read the effective value: the EN bit
written is 1, 1 ≤ COUNT ≤ 125 and BASE + COUNT ≤ 512; PT_BASE reads BASE too and 0 elsewhere. A write to PT_RANGE[p] stores START and COUNT, one to
PT_BASE[p] stores BASE and EN, and nothing else changes. That the entry is judged at each read, from
the EN bit as stored, is the model's reading (log 17). -/
def Obligations.PartitionEffectiveWhenLegal : Prop :=
  (∀ (s : State) (p : Fin 8),
    let e := s.cfg.pt[p]
    let legal := e.en = true ∧ 1 ≤ e.count.toNat ∧ e.count.toNat ≤ 125 ∧
      e.base.toNat + e.count.toNat ≤ 512
    ((busReadData 0x094#14 s).getLsbD (8 + p.val) = true ↔ legal) ∧
    ∀ a : BitVec 14, hostReg a = some (.ptBase p) →
      ((busReadData a s).getLsbD 31 = true ↔ legal) ∧
      (busReadData a s).extractLsb' 0 9 = e.base ∧ (busReadData a s).extractLsb' 9 22 = 0#22) ∧
  ∀ (a : BitVec 14) (p : Fin 8) (v : Word) (s : State),
    (hostReg a = some (.ptRange p) → ∃ t, handle exec (.busWrite a v) s = .next t ∧
      t.cfg.pt[p] = { s.cfg.pt[p] with
        start := v.extractLsb' 0 16, count := v.extractLsb' 16 7 } ∧
      (∀ q : Fin 8, q ≠ p → t.cfg.pt[q] = s.cfg.pt[q]) ∧
      t = { s with cfg := { s.cfg with pt := t.cfg.pt } }) ∧
    (hostReg a = some (.ptBase p) → ∃ t, handle exec (.busWrite a v) s = .next t ∧
      t.cfg.pt[p] = { s.cfg.pt[p] with base := v.extractLsb' 0 9, en := v.getLsbD 31 } ∧
      (∀ q : Fin 8, q ≠ p → t.cfg.pt[q] = s.cfg.pt[q]) ∧
      t = { s with cfg := { s.cfg with pt := t.cfg.pt } })

/-- R103: a CTRL write with several action bits acts as the writes of EN alone, then REINIT,
INVALIDATE and REFRESH one by one in this order. A write with no action bit that sets EN, or keeps it,
gives EN its value and changes nothing else (R103, R212). R684: REFRESH alone, with EN kept, sets
refresh_req and changes nothing else. -/
def Obligations.CtrlActionsInOrder : Prop :=
  (∀ (v : Word) (s : State), ∃ t1 t2 t3 t4,
    handle exec (.busWrite 0x008#14 (v &&& 1#32)) s = .next t1 ∧
    handle exec (.busWrite 0x008#14 (v &&& 3#32)) t1 = .next t2 ∧
    handle exec (.busWrite 0x008#14 (v &&& 5#32)) t2 = .next t3 ∧
    handle exec (.busWrite 0x008#14 (v &&& 9#32)) t3 = .next t4 ∧
    handle exec (.busWrite 0x008#14 v) s = .next t4) ∧
  (∀ (v : Word) (s : State), v.extractLsb' 1 3 = 0#3 →
    (v.getLsbD 0 = true ∨ v.getLsbD 0 = s.en) →
    handle exec (.busWrite 0x008#14 v) s = .next { s with en := v.getLsbD 0 }) ∧
  ∀ (v : Word) (s : State), v.extractLsb' 0 4 = (if s.en then 9#4 else 8#4) →
    handle exec (.busWrite 0x008#14 v) s =
      .next { s with cyc := { s.cyc with refreshReq := true } }

/-- R690: a CTRL write with INVALIDATE clears every VALID bit and the read cycle's progress, and
marks a partition read in flight; nothing else changes. -/
def Obligations.InvalidateClearsValues : Prop :=
  ∀ (v : Word) (s : State), v.extractLsb' 0 4 = (if s.en then 5#4 else 4#4) →
    ∃ t, handle exec (.busWrite 0x008#14 v) s = .next t ∧
      (∀ i, vrValid t i = false) ∧
      (t.txnDiscard = true ↔ s.txnDiscard = true ∨
        ((s.seq = .guard ∨ s.seq = .tx ∨ s.seq = .wait) ∧
          ∃ x c p b, s.txn = some x ∧ x.op = .read c (.partRead p b))) ∧
      t = { s with
        vr := t.vr, vrEpoch := t.vrEpoch, txnDiscard := t.txnDiscard
        cyc := { s.cyc with active := false, doneMask := 0#8, valid := false } }

/-! ## Interrupts (60_exceptions.md R820–R823) -/

/-- R823, R821: a write to IRQ_STATUS clears the flags whose bit is written 1, leaves the others and
does nothing else; `irq` is 1 exactly when some flag is set and enabled. -/
def Obligations.InterruptFlagsAndOutput : Prop :=
  (∀ (v : Word) (s : State), ∃ t, handle exec (.busWrite 0x010#14 v) s = .next t ∧
    (∀ f : IrqFlag, irqSet f t = (irqSet f s && !v.getLsbD f.bit)) ∧
    t = { s with irqStatus := t.irqStatus }) ∧
  ∀ s : State, irqOut s = true ↔
    ∃ f : IrqFlag, irqSet f s = true ∧ s.irqEnable.getLsbD f.bit = true

/-! ## The checksum (40_crc.md) -/

/-- R407: the reference values, by the bit form and by the table form, and their bytes on the wire. -/
def Obligations.CrcReferenceValues : Prop :=
  ∀ p ∈ ([([], 0xFFFF#16), ([0x00#8], 0x40BF#16), ([0xFF#8], 0x00FF#16), ([0x01#8], 0x807E#16),
      ([0x80#8], 0xE0BE#16), ([0x00#8, 0x00#8], 0xB001#16), ([0x01#8, 0x00#8], 0x2000#16),
      ([0xFF#8, 0xFF#8], 0x0000#16),
      ([0x31#8, 0x32#8, 0x33#8, 0x34#8, 0x35#8, 0x36#8, 0x37#8, 0x38#8, 0x39#8], 0x4B37#16),
      ([0x0A#8, 0x03#8, 0x00#8, 0x00#8, 0x00#8, 0x01#8], 0x7185#16),
      ([0x01#8, 0x03#8, 0x00#8, 0x00#8, 0x00#8, 0x01#8], 0x0A84#16),
      ([0x0A#8, 0x10#8, 0x00#8, 0x3B#8, 0x00#8, 0x01#8], 0x7F71#16),
      ([0x0A#8, 0x10#8, 0x00#8, 0x3B#8, 0x00#8, 0x01#8, 0x02#8, 0x01#8, 0xF4#8], 0xFCD1#16),
      ([0x0A#8, 0x03#8, 0x02#8, 0x03#8, 0x84#8], 0x161D#16)] : List (List Byte × U16)),
    crc16 p.1 = p.2 ∧ crc16Table p.1 = p.2 ∧ crcBytes p.1 = [lo p.2, hi p.2]

/-- R404: the table-driven form gives the same step and the same checksum for every byte list, and
the table has the sample entries. -/
def Obligations.CrcTableFormAgrees : Prop :=
  (∀ (acc : U16) (b : Byte),
    crcStep acc b = (acc >>> 8) ^^^ crcStep 0#16 ((acc ^^^ b.setWidth 16).extractLsb' 0 8)) ∧
  (∀ l : List Byte, crc16Table l = crc16 l) ∧
  crcTable 0x00#8 = 0x0000#16 ∧ crcTable 0x01#8 = 0xC0C1#16 ∧ crcTable 0x80#8 = 0xA001#16 ∧
  crcTable 0xFF#8 = 0x4040#16

/-- R405: a list followed by its own checksum has checksum 0, and so with the 0x00 pad; the block's
read request is such a list. -/
def Obligations.CrcResidueIsZero : Prop :=
  (∀ m : List Byte, crc16 (m ++ [lo (crc16 m), hi (crc16 m)]) = 0#16 ∧
    crc16 (m ++ [lo (crc16 m), hi (crc16 m), 0x00#8]) = 0#16) ∧
  ∀ (a : Byte) (st c : U16), crc16 (buildReadRequest a st c) = 0#16

/-- R406: inverting one bit of a list changes its checksum. -/
def Obligations.CrcDetectsSingleBit : Prop :=
  ∀ (m : List Byte) (i j : Nat), i < m.length → j < 8 → crc16 (flipBit m i j) ≠ crc16 m

/-! ## Frames and encodings (30_encoding.md, 41_frame_encoder.md, 42_frame_decoder.md) -/

/-- R454, R455: the lengths of the built frames; the ack is the first 6 bytes of the write request with
their own checksum, and no pad. -/
def Obligations.BuiltFrameShapes : Prop :=
  (∀ (a : Byte) (st c : U16), (buildReadRequest a st c).length = 9) ∧
  (∀ (a : Byte) (st : U16) (vals : List U16), 1 ≤ vals.length → vals.length ≤ 123 →
    (buildWriteRequest a st vals).length = 10 + 2 * vals.length ∧
    12 ≤ (buildWriteRequest a st vals).length ∧ (buildWriteRequest a st vals).length ≤ 256) ∧
  (∀ (a : Byte) (st : U16) (n : Byte), (ackFrame a st n).length = 8) ∧
  ∀ (a : Byte) (st : U16) (vals : List U16), vals.length < 256 →
    let n := BitVec.ofNat 8 vals.length
    let head := [a, 0x10#8, hi st, lo st, 0x00#8, n]
    ackFrame a st n = head ++ [lo (crc16 head), hi (crc16 head)] ∧
    (buildWriteRequest a st vals).take 6 = head

/-- Decoding an encoded well-formed instruction gives it back, every operand at every value: no bit
of an encoding is dropped. A frame is read in the instruction's own role (log 7). -/
def Obligations.DecodeOfEncodeIsIdentity : Prop :=
  ∀ (i : Instr) (c : Code) (role : FrameRole), WellFormed i → encode i = some c →
    (∀ own, frameRole i = some own → role = own) → decode role c = .ok i

/-- What the decoder accepts is well formed and encodes back to the same word or frame: each word has
one meaning, each frame one in its role. -/
def Obligations.EncodeOfDecodeIsIdentity : Prop :=
  ∀ (role : FrameRole) (c : Code) (i : Instr), decode role c = .ok i →
    WellFormed i ∧ encode i = some c

/-- Command words and frames written out from R302, R310–R313 decode to what they stand for. -/
def Obligations.WrittenOutCodesDecode : Prop :=
  decodeCommand 0x00000000#32 = .ok .nop ∧
  decodeCommand 0x00000102#32 = .ok (.crcByte 0x01#8) ∧
  decodeCommand 0x01000003#32 = .ok (.crcBuf 256#9) ∧
  decodeCommand 0x007B0011#32 = .ok (.bldWrite 123#9) ∧
  decodeCommand 0x00034031#32 = .ok (.modeReq .z1 .hotWater 0x40#8) ∧
  decodeFrame .request [0x0A#8, 0x03#8, 0x00#8, 0x00#8, 0x00#8, 0x01#8, 0x85#8, 0x71#8] =
    .ok (.readRequest 0x0A#8 0#16 1#16 []) ∧
  decodeFrame .answer [0x0A#8, 0x03#8, 0x02#8, 0x03#8, 0x84#8, 0x1D#8, 0x16#8] =
    .ok (.readAnswer 0x0A#8 [0x0384#16]) ∧
  decodeFrame .ack [0x0A#8, 0x10#8, 0x00#8, 0x3B#8, 0x00#8, 0x01#8, 0x71#8, 0x7F#8] =
    .ok (.writeAck 0x0A#8 59#16 1#8)

/-- R303, R730: the illegal words are exactly those R303 names, and writing one to CMD records the
word, sets CMD_STATUS to 1 and CMD_ERR, and changes nothing else. -/
def Obligations.IllegalWordsOnlyReport : Prop :=
  (∀ w : Word, (∃ e, decodeCommand w = .error e) ↔ illegalWord w = true) ∧
  ∀ (w : Word) (s : State), illegalWord w = true →
    ∃ t, handle exec (.busWrite 0x01C#14 w) s = .next t ∧
      busReadData 0x01C#14 t = w ∧ busReadData 0x020#14 t = 1#32 ∧
      t = { s with
        host := { s.host with cmd := w, cerr := .illegalOp, ferr := .ok }
        irqStatus := s.irqStatus ||| 0x100#9 }

/-- R512: only 1 ≤ expCount ≤ 125 can succeed, and the codes of the counts that cannot, for a frame
whose address and function match. -/
def Obligations.ParseAnswerImpossibleCounts : Prop :=
  (∀ n f a fn c vals, parseAnswer n f a fn c = .ok vals → 1 ≤ c ∧ c ≤ 125) ∧
  ∀ n f a fn c e, byteAt f 0 = a → byteAt f 1 = fn → parseAnswer n f a fn c = .error e →
    (c = 0 → n = 5 → e = .feLen) ∧
    (c = 0 → 7 ≤ n → n ≤ 256 → e = .feBcount ∨ e = .feTotlen) ∧
    (128 ≤ c → 7 ≤ n → n ≤ 256 → e = .feBcount) ∧
    (c = 126 ∨ c = 127 → e = .feLen ∨ e = .feBcount ∨ e = .feTotlen)

/-- R517: what a single inverted bit does to a well-formed frame, for every length. The pad of a read
request is the one byte whose inversion is not rejected. -/
def Obligations.SingleBitErrorsRejected : Prop :=
  (∀ (a : Byte) (st c : U16) (i j : Nat), i < 9 → j < 8 →
    parseSlaveRequest 9 (flipBit (buildReadRequest a st c) i j) =
      if i = 1 then .error .feFunc
      else if i = 8 then .ok (.readIntent a st c)
      else .error .feCrc) ∧
  (∀ (a : Byte) (st : U16) (vals : List U16) (i j : Nat), 1 ≤ vals.length → vals.length ≤ 123 →
    i < 10 + 2 * vals.length → j < 8 →
    parseSlaveRequest (10 + 2 * vals.length) (flipBit (buildWriteRequest a st vals) i j) =
      .error (if i = 1 then .feFunc
        else if i = 4 ∨ i = 5 ∨ i = 6 then .piBcount
        else if i = 9 + 2 * vals.length then .feTotlen
        else .feCrc)) ∧
  (∀ (a : Byte) (vals : List U16) (i j : Nat), 1 ≤ vals.length → vals.length ≤ 125 →
    i < 5 + 2 * vals.length → j < 8 →
    parseAnswer (5 + 2 * vals.length) (flipBit (answerFrame a vals) i j) a 0x03#8 vals.length =
      .error (if i = 0 then .feAddr
        else if i = 1 then .feFunc
        else if i = 2 then .feBcount
        else .feCrc)) ∧
  ∀ (a : Byte) (st : U16) (n : Byte) (i j : Nat), i < 8 → j < 8 →
    ackMatch 8 (flipBit (ackFrame a st n) i j) (ackFrame a st n) = .ackMismatch

/-! ## Host commands (46_host_commands.md) -/

/-- R700–R703: the words of NOP, CRC.INIT, CRC.BYTE and CRC.BUF, and all that each changes. -/
def Obligations.CrcCommandsResult : Prop :=
  (decodeCommand 0x00000000#32 = .ok .nop ∧ decodeCommand 0x00000001#32 = .ok .crcInit ∧
    (∀ b : Byte, decodeCommand (0x00000002#32 ||| (b.setWidth 32 <<< 8)) = .ok (.crcByte b)) ∧
    ∀ l : BitVec 9, decodeCommand (0x00000003#32 ||| (l.setWidth 32 <<< 16)) = .ok (.crcBuf l)) ∧
  ∀ s : State,
    exec .nop s = .next { s with host := { s.host with cerr := .ok, ferr := .ok } } ∧
    exec .crcInit s =
      .next { s with host := { s.host with cerr := .ok, ferr := .ok, crcAcc := 0xFFFF#16 } } ∧
    (∀ b : Byte, exec (.crcByte b) s =
      .next { s with
        host := { s.host with cerr := .ok, ferr := .ok, crcAcc := crcStep s.host.crcAcc b } }) ∧
    ∀ l : BitVec 9, exec (.crcBuf l) s =
      .next (if l.toNat ≤ 256 then
        { s with
          host := { s.host with
            cerr := .ok, ferr := .ok
            crcAcc := crc16 ((List.range l.toNat).map (hbufAt s)) } }
      else
        { s with
          host := { s.host with cerr := .badRange, ferr := .ok }
          irqStatus := s.irqStatus ||| 0x100#9 })

/-- R710, R711, R712: the words of BLD.READ, BLD.WRITE and BLD.ACK, and all that each changes. -/
def Obligations.BuildCommandsResult : Prop :=
  (∀ l : BitVec 9,
    decodeCommand (0x00000010#32 ||| (l.setWidth 32 <<< 16)) = .ok (.bldRead l) ∧
    decodeCommand (0x00000011#32 ||| (l.setWidth 32 <<< 16)) = .ok (.bldWrite l) ∧
    decodeCommand (0x00000012#32 ||| (l.setWidth 32 <<< 16)) = .ok (.bldAck l)) ∧
  (∀ (l : BitVec 9) (s : State),
    (1 ≤ l.toNat ∧ l.toNat ≤ 125 → ∃ t, exec (.bldRead l) s = .next t ∧
      (∀ i, hbufAt t i = if i < 9 then
          byteAt (buildReadRequest s.host.argAddr s.host.argStart (l.setWidth 16)) i
        else hbufAt s i) ∧
      t = { s with
        host := { s.host with hbuf := t.host.hbuf, hlen := 9#9, cerr := .ok, ferr := .ok } }) ∧
    (¬(1 ≤ l.toNat ∧ l.toNat ≤ 125) → exec (.bldRead l) s =
      .next { s with
        host := { s.host with cerr := .badRange, ferr := .ok }
        irqStatus := s.irqStatus ||| 0x100#9 })) ∧
  (∀ (l : BitVec 9) (s : State),
    (1 ≤ l.toNat ∧ l.toNat ≤ 123 → ∃ t, exec (.bldWrite l) s = .next t ∧
      (∀ i, hbufAt t i = if i < 10 + 2 * l.toNat then
          byteAt (buildWriteRequest s.host.argAddr s.host.argStart
            ((List.range l.toNat).map (hvalAt s))) i
        else hbufAt s i) ∧
      t.host.hlen.toNat = 10 + 2 * l.toNat ∧
      t = { s with
        host := { s.host with
          hbuf := t.host.hbuf, hlen := t.host.hlen, cerr := .ok, ferr := .ok } }) ∧
    (¬(1 ≤ l.toNat ∧ l.toNat ≤ 123) → exec (.bldWrite l) s =
      .next { s with
        host := { s.host with cerr := .badRange, ferr := .ok }
        irqStatus := s.irqStatus ||| 0x100#9 })) ∧
  ∀ (l : BitVec 9) (s : State),
    (l.toNat ≤ 255 → ∃ t, exec (.bldAck l) s = .next t ∧
      (∀ i, hbufAt t i = if i < 8 then
          byteAt (ackFrame s.host.argAddr s.host.argStart (l.setWidth 8)) i
        else hbufAt s i) ∧
      t = { s with
        host := { s.host with hbuf := t.host.hbuf, hlen := 8#9, cerr := .ok, ferr := .ok } }) ∧
    (255 < l.toNat → exec (.bldAck l) s =
      .next { s with
        host := { s.host with cerr := .badRange, ferr := .ok }
        irqStatus := s.irqStatus ||| 0x100#9 })

/-- R715, R716: the words of PRS.REQ and PRS.ANS, and all that each changes, by the result of its
parser on HBUF[0 .. HLEN). -/
def Obligations.ParseCommandsResult : Prop :=
  (decodeCommand 0x00000020#32 = .ok .prsReq ∧
    ∀ l : BitVec 9, decodeCommand (0x00000021#32 ||| (l.setWidth 32 <<< 16)) = .ok (.prsAns l)) ∧
  (∀ s : State, ∃ t, exec .prsReq s = .next t ∧
    match parseSlaveRequest s.host.hlen.toNat ((List.range s.host.hlen.toNat).map (hbufAt s)) with
    | .error e =>
      t = { s with host := { s.host with cerr := .ok, ferr := e, pres := ParseResult.zero } } ∧
      busReadData 0x030#14 t = 0#32 ∧ busReadData 0x034#14 t = 0#32
    | .ok (.readIntent a st c) =>
      t = { s with host := { s.host with cerr := .ok, ferr := .ok, pres := t.host.pres } } ∧
      busReadData 0x030#14 t = 1#32 ||| (a.setWidth 32 <<< 8) ||| (0x03#32 <<< 16) ∧
      busReadData 0x034#14 t = st.setWidth 32 ||| (c.setWidth 32 <<< 16)
    | .ok (.writeIntent a st vs) =>
      t = { s with
        host := { s.host with
          cerr := .ok, ferr := .ok, pres := t.host.pres, hval := t.host.hval } } ∧
      busReadData 0x030#14 t = 2#32 ||| (a.setWidth 32 <<< 8) ||| (0x10#32 <<< 16) ∧
      busReadData 0x034#14 t = st.setWidth 32 ||| (BitVec.ofNat 32 vs.length <<< 16) ∧
      ∀ i, hvalAt t i = if i < vs.length then vs.getD i 0#16 else hvalAt s i) ∧
  ∀ (l : BitVec 9) (s : State), ∃ t, exec (.prsAns l) s = .next t ∧
    match parseAnswer s.host.hlen.toNat ((List.range s.host.hlen.toNat).map (hbufAt s))
      s.host.argAddr s.host.argFunc l.toNat with
    | .error e =>
      t = { s with host := { s.host with cerr := .ok, ferr := e, pres := ParseResult.zero } } ∧
      busReadData 0x030#14 t = 0#32 ∧ busReadData 0x034#14 t = 0#32
    | .ok vs =>
      t = { s with
        host := { s.host with
          cerr := .ok, ferr := .ok, pres := t.host.pres, hval := t.host.hval } } ∧
      busReadData 0x030#14 t =
        3#32 ||| (s.host.argAddr.setWidth 32 <<< 8) ||| (s.host.argFunc.setWidth 32 <<< 16) ∧
      busReadData 0x034#14 t = l.setWidth 32 <<< 16 ∧
      ∀ i, hvalAt t i = if i < l.toNat then vs.getD i 0#16 else hvalAt s i

/-- R721: the word of WQ.PUSH, and all that it changes. -/
def Obligations.WqPushResult : Prop :=
  (∀ l : BitVec 9, decodeCommand (0x00000030#32 ||| (l.setWidth 32 <<< 16)) = .ok (.wqPush l)) ∧
  ∀ (l : BitVec 9) (s : State), exec (.wqPush l) s =
    .next (if ¬(1 ≤ l.toNat ∧ l.toNat ≤ 123) then
      { s with
        host := { s.host with cerr := .badRange, ferr := .ok }
        irqStatus := s.irqStatus ||| 0x100#9 }
    else if s.wq.length = 8 then
      { s with
        host := { s.host with cerr := .wqFull, ferr := .ok }
        irqStatus := s.irqStatus ||| 0x100#9 }
    else
      { s with
        host := { s.host with cerr := .ok, ferr := .ok }
        wq := s.wq ++ [{ start := s.host.argStart
                         vals := (List.range l.toNat).map (hvalAt s) }] })

/-- R722: the words of MODE.REQ, and all that it changes, for each zone and sub-field. -/
def Obligations.ModeReqResult : Prop :=
  (∀ code : Byte,
    let w := fun l : BitVec 32 => 0x00000031#32 ||| (code.setWidth 32 <<< 8) ||| (l <<< 16)
    decodeCommand (w 0#32) = .ok (.modeReq .z0 .zoneMode code) ∧
    decodeCommand (w 1#32) = .ok (.modeReq .z1 .zoneMode code) ∧
    decodeCommand (w 2#32) = .ok (.modeReq .z0 .hotWater code) ∧
    decodeCommand (w 3#32) = .ok (.modeReq .z1 .hotWater code)) ∧
  ∀ (code : Byte) (s : State),
    let done := { s.host with cerr := Cerr.ok, ferr := Ferr.ok }
    let slot : SubSlot := { pend := true, code := code, dirty := true }
    exec (.modeReq .z0 .zoneMode code) s =
      .next { s with host := done, slots0 := { s.slots0 with zone := slot } } ∧
    exec (.modeReq .z0 .hotWater code) s =
      .next { s with host := done, slots0 := { s.slots0 with hot := slot } } ∧
    exec (.modeReq .z1 .zoneMode code) s =
      .next { s with host := done, slots1 := { s.slots1 with zone := slot } } ∧
    exec (.modeReq .z1 .hotWater code) s =
      .next { s with host := done, slots1 := { s.slots1 with hot := slot } }

/-- R705: a command changes only the host unit and IRQ_STATUS, WQ.PUSH the queue too and MODE.REQ the
sub-slots too; R731: CMD_ERR is raised exactly when CERR ≠ OK, no other flag changes, and FERR is 0
except after PRS.REQ and PRS.ANS. -/
def Obligations.CommandsLeaveSequencerAlone : Prop :=
  ∀ (i : Instr) (s : State), isCommand i = true → ∃ t, exec i s = .next t ∧
    t = { s with
      host := t.host, irqStatus := t.irqStatus, wq := t.wq, slots0 := t.slots0
      slots1 := t.slots1 } ∧
    (t.host.cmd = s.host.cmd ∧ t.host.argStart = s.host.argStart ∧
      t.host.argAddr = s.host.argAddr ∧ t.host.argFunc = s.host.argFunc) ∧
    ((∀ l, i ≠ .wqPush l) → t.wq = s.wq) ∧
    ((∀ z f c, i ≠ .modeReq z f c) → t.slots0 = s.slots0 ∧ t.slots1 = s.slots1) ∧
    t.irqStatus = (if t.host.cerr = .ok then s.irqStatus else s.irqStatus ||| 0x100#9) ∧
    (t.host.ferr ≠ .ok → i = .prsReq ∨ ∃ l, i = .prsAns l)

/-- R802, R812: the CERR code of every word written to CMD and its number in CMD_STATUS, and that a word
whose code is not OK changes nothing but CMD, CMD_STATUS and CMD_ERR. -/
def Obligations.CommandErrorsByCause : Prop :=
  ∀ (w : Word) (s : State), ∃ t, handle exec (.busWrite 0x01C#14 w) s = .next t ∧
    t.host.cerr = wordError w s.wq.length ∧ t.host.cmd = w ∧
    (busReadData 0x020#14 t).extractLsb' 0 4 = (match t.host.cerr with
      | .ok => 0#4
      | .illegalOp => 1#4
      | .badRange => 2#4
      | .wqFull => 3#4) ∧
    (t.host.cerr ≠ .ok →
      t = { s with
        host := { s.host with cmd := w, cerr := t.host.cerr, ferr := .ok }
        irqStatus := s.irqStatus ||| 0x100#9 })

/-! ## The line (43_line_and_arbiter.md) -/

/-- R552, R554–R556, R559: while `de` = 1 a start bit and a byte change no state. Otherwise, outside a
turn's guard and pause, a start bit only marks a character in progress, and a byte opens or joins the
frame, whose owner its first byte fixes, and is observed by the arbiter. -/
def Obligations.ReceivedCharacterEffects : Prop :=
  (∀ (b : Byte) (ferr : Bool) (s : State), s.tx.de = true →
    handle exec .rxStart s = .next s ∧ handle exec (.rxByte b ferr) s = .next s) ∧
  ∀ (b : Byte) (ferr : Bool) (s : State), s.tx.de = false → s.seq ≠ .guard → s.seq ≠ .pause →
    handle exec .rxStart s = .next { s with rx := { s.rx with active := true } } ∧
    let first := !s.rx.inFrame
    let own := if first then (if s.seq = .wait then RxOwner.answer else RxOwner.snoop) else s.rx.owner
    let observed := first && s.seq != Seq.wait && s.en && s.arb != Arb.slave
    handle exec (.rxByte b ferr) s =
      .next { s with
        quietMs := 0
        rx := { active := false
                inFrame := true
                len := if first then 1 else min (s.rx.len + 1) 511
                gap := 0
                ferr := (!first && s.rx.ferr) || ferr
                owner := own
                buf := if first then [b]
                  else if s.rx.len < 256 then s.rx.buf ++ [b] else s.rx.buf }
        ansSeen := s.ansSeen || (first && s.seq == Seq.wait)
        arb := if observed then Arb.slave else s.arb
        irqStatus := if observed then s.irqStatus ||| 0x020#9 else s.irqStatus
        seq := if observed && s.seq == Seq.listen then Seq.off else s.seq
        unit := if observed && s.seq == Seq.listen then TurnUnit.mode0 else s.unit
        step := if observed && s.seq == Seq.listen then 0 else s.step }

/-- R552, R554, R662: a start bit, or a byte, in a guard or a pause aborts the turn with reason
ACTIVITY: the sequencer goes OFF, the arbiter to SLAVE, the transaction is dropped, and nothing else
of the block changes but the receiver and `quiet_ms`: the byte opens a frame owned by SNOOP, or joins
the frame that is open. -/
def Obligations.ActivityAbortsTurn : Prop :=
  ∀ (b : Byte) (ferr : Bool) (s : State), s.tx.de = false → (s.seq = .guard ∨ s.seq = .pause) →
    let aborted := { s with
      seq := .off, unit := .mode0, step := 0, lastAbort := .activity, txnDiscard := false
      txn := none, arb := .slave
      cnt := { s.cnt with aborts := s.cnt.aborts + 1 }
      irqStatus := s.irqStatus ||| 0x004#9 |||
        (if s.arb = Arb.slave then 0#9 else 0x020#9) }
    handle exec .rxStart s = .next { aborted with rx := { s.rx with active := true } } ∧
    let first := !s.rx.inFrame
    handle exec (.rxByte b ferr) s = .next { aborted with
      quietMs := 0
      rx := { active := false
              inFrame := true
              len := if first then 1 else min (s.rx.len + 1) 511
              gap := 0
              ferr := (!first && s.rx.ferr) || ferr
              owner := if first then .snoop else s.rx.owner
              buf := if first then [b]
                else if s.rx.len < 256 then s.rx.buf ++ [b] else s.rx.buf } }

/-- R553: when a frame ends. The gap counts `tick_bit`s with a frame open and no character in
progress; at T_GAP_BITS the frame goes to its owner with its length and stored bytes. -/
def Obligations.FrameEndsAfterGap : Prop :=
  ∀ s : State, s.seq ≠ .tx →
    let u := { s with bitTicks := s.bitTicks + 1 }
    let g := min (s.rx.gap + 1) 255
    (s.rx.inFrame = false ∨ s.rx.active = true → handle exec .tickBit s = .next u) ∧
    (s.rx.inFrame = true → s.rx.active = false → g < s.cfg.tGap.toNat →
      handle exec .tickBit s = .next { u with rx := { s.rx with gap := g } }) ∧
    (s.rx.inFrame = true → s.rx.active = false → s.cfg.tGap.toNat ≤ g →
      s.rx.buf.length = min s.rx.len 256 →
      handle exec .tickBit s =
        .next (deliverFrame s.rx.len s.rx.buf { u with rx := { s.rx with gap := g } }))

/-- R558: what the block records of an observed frame of `n` bytes, its first 256 in `f`, and which
flag and counter report it. -/
def Obligations.SnoopRecordsFrame : Prop :=
  ∀ (n : Nat) (f : List Byte) (s : State), n ≤ 511 → f.length = min n 256 →
    s.rx.owner = .snoop →
    let r := if s.rx.ferr then .error .feUart else parseSlaveRequest n f
    let t := deliverFrame n f s
    (∀ i, snoopAt t i = if i < min n 256 then byteAt f i else snoopAt s i) ∧
    t = { s with
      rx := s.rx.idle
      snoop := { len := BitVec.ofNat 9 (min n 256)
                 ovf := decide (256 < n)
                 uerr := s.rx.ferr
                 ferr := codeOf r
                 res := match r with
                   | .ok (.readIntent a st c) =>
                     { kind := .readIntent, addr := a, func := 0x03#8, start := st, count := c }
                   | .ok (.writeIntent a st vs) =>
                     { kind := .writeIntent, addr := a, func := 0x10#8, start := st
                       count := BitVec.ofNat 16 vs.length }
                   | .error _ => ParseResult.zero
                 buf := t.snoop.buf }
      cnt := { s.cnt with
        frames := s.cnt.frames + 1
        snoopErr := if codeOf r = .ok ∨ codeOf r = .piBcount then s.cnt.snoopErr
          else s.cnt.snoopErr + 1 }
      irqStatus := if codeOf r = .ok then s.irqStatus ||| 0x008#9
        else if codeOf r = .piBcount then s.irqStatus else s.irqStatus ||| 0x010#9 }

/-- Observed requests complete: READ_REQUEST and WRITE_REQUEST with no framing error are parsed to
their own operands, reported by SNOOP_OK and counted; a framing error fails them with FE_UART. A wire
frame whose owner is DISCARD is dropped, whichever frame it is, and so is a frame of any bytes (R557).
Running a frame as an instruction at its end is the model's reading (log 7). -/
def Obligations.ObservedRequestsComplete : Prop :=
  (∀ (i : Instr) (f : List Byte) (s : State), WellFormed i → encode i = some (.frame f) →
    frameRole i = some .request → s.rx.owner = .snoop →
    ∃ t, exec i s = .next t ∧
      t = { s with
        rx := s.rx.idle, snoop := t.snoop, cnt := t.cnt, irqStatus := t.irqStatus } ∧
      t.cnt = { s.cnt with
        frames := s.cnt.frames + 1
        snoopErr := if s.rx.ferr then s.cnt.snoopErr + 1 else s.cnt.snoopErr } ∧
      t.irqStatus = s.irqStatus ||| (if s.rx.ferr then 0x010#9 else 0x008#9) ∧
      (∀ k, snoopAt t k = if k < f.length then byteAt f k else snoopAt s k) ∧
      t.snoop.len.toNat = f.length ∧ t.snoop.ovf = false ∧ t.snoop.uerr = s.rx.ferr ∧
      t.snoop.ferr = (if s.rx.ferr then .feUart else .ok) ∧
      (s.rx.ferr = true → t.snoop.res = ParseResult.zero) ∧
      (s.rx.ferr = false →
        (∀ a st c tail, i = .readRequest a st c tail → t.snoop.res =
          { kind := .readIntent, addr := a, func := 0x03#8, start := st, count := c }) ∧
        ∀ a st vs pad, i = .writeRequest a st vs pad → t.snoop.res =
          { kind := .writeIntent, addr := a, func := 0x10#8, start := st
            count := BitVec.ofNat 16 vs.length })) ∧
  (∀ (i : Instr) (role : FrameRole) (s : State), frameRole i = some role → s.rx.owner = .discard →
    exec i s = .next { s with rx := s.rx.idle }) ∧
  ∀ (n : Nat) (f : List Byte) (s : State), s.rx.owner = .discard →
    deliverFrame n f s = { s with rx := s.rx.idle }

/-- R561: one `tick_bit` of a transmission, and the level of TX in each bit time of each character. The
level (start bit 0, least significant bit first, stop bit and idle 1) is presumed (log 21). -/
def Obligations.TransmitterSendsBackToBack : Prop :=
  (∀ s : State, s.seq = .tx → s.rx.inFrame = false → 1 ≤ s.tx.bits →
    let b := s.tx.bits - 1
    let u := { s with bitTicks := s.bitTicks + 1, tx := { s.tx with bits := b } }
    handle exec .tickBit s =
      .next (if b = 0 then
          { u with tx := { s.tx with de := false, bits := 0 }, seq := .wait, txnMs := 0
                   ansSeen := false }
        else if b % 10 = 0 then
          { u with outLog := s.outLog ++ [.txByte (byteAt s.tx.buf (s.tx.buf.length - b / 10))] }
        else u)) ∧
  (∀ s : State, s.tx.de = false → txLevel s = true) ∧
  ∀ (s : State) (k j : Nat), s.tx.de = true → k < s.tx.buf.length → j < 10 →
    s.tx.bits = 10 * s.tx.buf.length - (10 * k + j) →
    txLevel s = (if j = 0 then false
      else if j = 9 then true
      else (byteAt s.tx.buf k).getLsbD (j - 1))

/-! ## The arbiter (43_line_and_arbiter.md §4) -/

/-- R572: in the OFF handler of `tick_ms` the arbiter enters MASTER, raises STATE_CHG and starts a turn
exactly under the rule's conditions, with the strict comparison, and is in MASTER afterwards; else
the event only counts. -/
def Obligations.MasterOnlyAfterQuiescence : Prop :=
  ∀ s : State, s.seq = .off → s.arb ≠ .master →
    let u := { s with
      quietMs := min (s.quietMs + 1) 4294967295
      cyc := { s.cyc with sinceMs := min (s.cyc.sinceMs + 1) 4294967295 }
      msTicks := s.msTicks + 1 }
    let ready := s.en = true ∧ s.arb = .slave ∧ s.cfg.tQuiet.toNat < u.quietMs ∧
      s.rx.active = false ∧ s.rx.inFrame = false
    ∃ t, handle exec .tickMs s = .next t ∧ (t.arb = .master ↔ ready) ∧
      (ready → irqSet .stateChg t = true ∧
        t = turnStart { u with arb := .master, irqStatus := s.irqStatus ||| 0x020#9 }) ∧
      (¬ready → t = u)

/-- R575–R577: a stop request waits while a transaction is in flight; REINIT replaces a waiting STOP,
STOP does not replace a waiting REINIT; otherwise the stop is performed at once. REINIT does so with EN
= 0 as well; with no transaction in flight only its receiver part then acts, from a state that meets
the invariant. What performing a stop does, in a turn and outside one, and what REINIT adds. -/
def Obligations.StopsWaitAndReturnToInit : Prop :=
  (∀ (v : Word) (s : State), v.extractLsb' 0 4 = 0#4 → s.en = true →
    (inTxn s = true → handle exec (.busWrite 0x008#14 v) s = .next { s with
      en := false
      stopPending := if s.stopPending = some .reinit then some .reinit else some .stop }) ∧
    (inTxn s = false →
      handle exec (.busWrite 0x008#14 v) s = .next (doStop .stop { s with en := false }))) ∧
  (∀ (v : Word) (s : State), v.extractLsb' 0 4 = (if s.en then 3#4 else 2#4) →
    (inTxn s = true →
      handle exec (.busWrite 0x008#14 v) s = .next { s with stopPending := some .reinit }) ∧
    (inTxn s = false → handle exec (.busWrite 0x008#14 v) s = .next (doStop .reinit s)) ∧
    (inTxn s = false → s.en = false → Inv s →
      handle exec (.busWrite 0x008#14 v) s = .next { s with
        rx := { s.rx with owner := if s.rx.inFrame then .discard else s.rx.owner }
        quietMs := 0 })) ∧
  ∀ s : State,
    let quiet := { s with
      stopPending := none, seq := .off, unit := .mode0, step := 0, arb := .init
      irqStatus := s.irqStatus ||| (if s.arb = .init then 0#9 else 0x020#9) }
    let aborted := fun reason => { quiet with
      lastAbort := reason, txnDiscard := false, txn := none
      cnt := { s.cnt with aborts := s.cnt.aborts + 1 }
      irqStatus := quiet.irqStatus ||| 0x004#9 }
    let restarted := { s.rx with owner := if s.rx.inFrame then .discard else s.rx.owner }
    (inTurn s = true → doStop .stop s = aborted .stop ∧
      doStop .reinit s = { aborted .reinit with rx := restarted, quietMs := 0 }) ∧
    (inTurn s = false → doStop .stop s = quiet ∧
      doStop .reinit s = { quiet with rx := restarted, quietMs := 0 })

/-- R570: in every step from a state that meets the invariant, `arb` changes only as the table says,
INIT never to MASTER, and each change leaves STATE_CHG set, a reset apart (R900). The rows' conditions
are those of R556, R572, R575, R577 and R662. -/
def Obligations.ArbiterChangesOnlyAsTabled : Prop :=
  ∀ s t : State, Inv s → step s = .next t → t.arb ≠ s.arb →
    arbChange (nextEvent s).1 s s.arb t.arb ∧
    ((nextEvent s).1 ≠ .reset → irqSet .stateChg t = true)

/-- R571, R574: the block gives a byte to the line only in MASTER, at a `tick_ms` that ends a guard or
a `tick_bit` of a transmission, and a request starts only on a line quiet for T_IDLE_MS. -/
def Obligations.TransmitsOnlyInMaster : Prop :=
  ∀ (s t : State) (b : Byte), Inv s → step s = .next t → t.outLog = s.outLog ++ [.txByte b] →
    s.arb = .master ∧ t.arb = .master ∧ t.seq = .tx ∧ t.tx.de = true ∧
    ((nextEvent s).1 = .tickMs ∧ s.seq = .guard ∧
        s.cfg.tIdle.toNat ≤ min (s.quietMs + 1) 4294967295 ∧ s.rx.active = false ∧
        s.rx.inFrame = false ∨
      (nextEvent s).1 = .tickBit ∧ s.seq = .tx)

/-! ## Transactions (44_transactions.md) -/

/-- R601, R456: masterReadAnalog and masterWriteAnalog begin: the request in TXB, the expected ack,
the record of the transaction, the sequencer in GUARD, and nothing else. That the instruction is this
beginning alone is the model's reading (log 8); that it begins so for operands that are not well formed
and in states where no transaction could begin is the model's choice (log 20). -/
def Obligations.TransactionBegins : Prop :=
  (∀ (st c : U16) (p : ReadPurpose) (s : State),
    let a := s.cfg.slaveAddr
    let head := [a, 0x03#8, hi st, lo st, hi c, lo c]
    exec (.masterReadAnalog st c p) s = .next { s with
      tx := { s.tx with buf := head ++ [lo (crc16 head), hi (crc16 head), 0x00#8] }
      txn := some { addr := a, start := st, op := .read c p }
      seq := .guard }) ∧
  ∀ (st : U16) (vals : List U16) (p : WritePurpose) (s : State),
    let a := s.cfg.slaveAddr
    let n := BitVec.ofNat 8 vals.length
    let head := [a, 0x10#8, hi st, lo st, 0x00#8, n, BitVec.ofNat 8 (2 * vals.length)] ++
      vals.flatMap (fun v => [hi v, lo v])
    let ack := [a, 0x10#8, hi st, lo st, 0x00#8, n]
    exec (.masterWriteAnalog st vals p) s = .next { s with
      tx := { s.tx with buf := head ++ [lo (crc16 head), hi (crc16 head), 0x00#8] }
      ackExp := ack ++ [lo (crc16 ack), hi (crc16 ack)]
      txn := some { addr := a, start := st, op := .write vals p }
      seq := .guard }

/-- R602, R560: in GUARD a `tick_ms` sends the request exactly on a quiet line, else only counts. -/
def Obligations.GuardSendsOnQuietLine : Prop :=
  ∀ s : State, s.seq = .guard →
    let u := { s with
      quietMs := min (s.quietMs + 1) 4294967295
      cyc := { s.cyc with sinceMs := min (s.cyc.sinceMs + 1) 4294967295 }
      drainMs := if s.unit = .drain then min (s.drainMs + 1) 4294967295 else s.drainMs
      msTicks := s.msTicks + 1 }
    (s.cfg.tIdle.toNat ≤ u.quietMs ∧ s.rx.active = false ∧ s.rx.inFrame = false →
      handle exec .tickMs s = .next { u with
        seq := .tx
        tx := { s.tx with de := true, bits := 10 * s.tx.buf.length }
        outLog := s.outLog ++ [.txByte (byteAt s.tx.buf 0)] }) ∧
    (¬(s.cfg.tIdle.toNat ≤ u.quietMs ∧ s.rx.active = false ∧ s.rx.inFrame = false) →
      handle exec .tickMs s = .next u)

/-- R606: in WAIT a `tick_ms` counts `txn_ms`; at T_TXN_MS an open answer frame is discarded and the
transaction ends with TE_TIMEOUT. -/
def Obligations.AnswerTimesOut : Prop :=
  ∀ s : State, s.seq = .wait →
    let n := min (s.txnMs + 1) 4294967295
    let u := { s with
      quietMs := min (s.quietMs + 1) 4294967295
      cyc := { s.cyc with sinceMs := min (s.cyc.sinceMs + 1) 4294967295 }
      drainMs := if s.unit = .drain then min (s.drainMs + 1) 4294967295 else s.drainMs
      msTicks := s.msTicks + 1
      txnMs := n }
    (n < s.cfg.tTxn.toNat → handle exec .tickMs s = .next u) ∧
    (s.cfg.tTxn.toNat ≤ n → handle exec .tickMs s =
      .next (txnEnd (.error .teTimeout) { u with
        rx := { s.rx with
          owner := if s.rx.inFrame = true ∧ s.rx.owner = .answer then .discard
            else s.rx.owner } }))

/-- R652, R668: in LISTEN and in PAUSE a `tick_ms` counts the window's own timer; at T_LISTEN_MS the
next turn starts, at T_PAUSE_MS the mode sequence runs its next step. -/
def Obligations.ListenAndPauseWindows : Prop :=
  ∀ s : State,
    let u := { s with
      quietMs := min (s.quietMs + 1) 4294967295
      cyc := { s.cyc with sinceMs := min (s.cyc.sinceMs + 1) 4294967295 }
      msTicks := s.msTicks + 1 }
    let n := min (s.listenMs + 1) 4294967295
    let k := min (s.pauseMs + 1) 4294967295
    (s.seq = .listen → handle exec .tickMs s = .next
      (if n < s.cfg.tListen.toNat then { u with listenMs := n }
       else turnStart { u with listenMs := n })) ∧
    (s.seq = .pause → s.unit ≠ .drain → handle exec .tickMs s = .next
      (if k < s.cfg.tPause.toNat then { u with pauseMs := k }
       else runStep { u with pauseMs := k, step := s.step + 1 }))

/-- R605, R683: a READ_ANSWER that answers a partition read completes: the values are stored VALID,
the partition is done, the cycle completes when it was the last, and the turn ends. After an
INVALIDATE the values are dropped. That the frame runs as an instruction at its end (log 7), and that
the cycle completes also when no partition is effective any more (log 22), are the model's readings. -/
def Obligations.PartitionReadAnswered : Prop :=
  ∀ (a : Byte) (st : U16) (vals : List U16) (p : Fin 8) (base : BitVec 9) (s : State),
    1 ≤ vals.length → vals.length ≤ 125 →
    s.rx.owner = .answer → s.rx.ferr = false → s.stopPending = none →
    s.txn = some { addr := a, start := st
                   op := .read (BitVec.ofNat 16 vals.length) (.partRead p base) } →
    ∃ t, exec (.readAnswer a vals) s = .next t ∧
      t = { s with
        rx := s.rx.idle, lastErr := .ok, txn := none, txnDiscard := false
        seq := .listen, listenMs := 0, unit := .mode0, step := 0
        cnt := t.cnt, vr := t.vr, cyc := t.cyc, irqStatus := t.irqStatus } ∧
      (s.txnDiscard = true → t.vr = s.vr ∧ t.cyc = s.cyc ∧ t.irqStatus = s.irqStatus ∧
        t.cnt = { s.cnt with txnOk := s.cnt.txnOk + 1 }) ∧
      (s.txnDiscard = false →
        (∀ k, k < vals.length → vrValid t (base.toNat + k) = true ∧
          vrValue t (base.toNat + k) = vals.getD k 0#16) ∧
        (∀ k, (k < base.toNat ∨ base.toNat + vals.length ≤ k) →
          vrValid t k = vrValid s k ∧ vrValue t k = vrValue s k) ∧
        let done := s.cyc.doneMask ||| (1#8 <<< p.val)
        (effEn s &&& ~~~done ≠ 0#8 → t.cyc = { s.cyc with doneMask := done } ∧
          t.irqStatus = s.irqStatus ∧ t.cnt = { s.cnt with txnOk := s.cnt.txnOk + 1 }) ∧
        (effEn s &&& ~~~done = 0#8 →
          t.cyc = { s.cyc with active := false, doneMask := done, valid := true, sinceMs := 0 } ∧
          t.irqStatus = s.irqStatus ||| 0x001#9 ∧
          t.cnt = { s.cnt with txnOk := s.cnt.txnOk + 1, cycles := s.cnt.cycles + 1 }))

/-- R605, R666, R668: a READ_ANSWER that answers step 0 of a mode sequence completes: the merged value
is latched and the write of step 1 begins. The frame runs as an instruction at its end (log 7). -/
def Obligations.ModeReadAnswered : Prop :=
  ∀ (a : Byte) (st v : U16) (s : State),
    s.rx.owner = .answer → s.rx.ferr = false → s.stopPending = none →
    s.txn = some { addr := a, start := st, op := .read 1#16 .modeRead } →
    let m := mergeMode s.run v
    let af := m &&& 0x002F#16 == 0x0001#16
    let reg := if af then s.run.dcReg else s.run.modeReg
    let w := if af then 1#16 else m
    exec (.readAnswer a [v]) s = .next { s with
      rx := s.rx.idle, lastErr := .ok
      cnt := { s.cnt with txnOk := s.cnt.txnOk + 1 }
      run := { s.run with val := m, af := af }
      step := 1
      tx := { s.tx with buf := buildWriteRequest s.cfg.slaveAddr reg [w] }
      ackExp := ackFrame s.cfg.slaveAddr reg 1#8
      txn := some { addr := s.cfg.slaveAddr, start := reg, op := .write [w] .modeWrite }
      seq := .guard }

/-- R605, R677, R676: a WRITE_ACK that acknowledges a drain write completes: the head leaves the
queue, WQ_EMPTY is raised when it was the last, and the next entry's write begins while the budget
allows; with the queue empty or the budget spent the read step follows. The frame runs as an
instruction at its end (log 7). -/
def Obligations.DrainWriteAcknowledged : Prop :=
  ∀ (a : Byte) (st : U16) (vals : List U16) (s : State),
    s.rx.owner = .answer → s.rx.ferr = false → s.stopPending = none →
    s.txn = some { addr := a, start := st, op := .write vals .drainWrite } →
    s.ackExp = ackFrame a st (BitVec.ofNat 8 vals.length) →
    ∃ t, exec (.writeAck a st (BitVec.ofNat 8 vals.length)) s = .next t ∧
      t.wq = s.wq.tail ∧ t.lastErr = .ok ∧ t.cnt.txnOk = s.cnt.txnOk + 1 ∧
      (s.wq.tail = [] → irqSet .wqEmpty t = true) ∧
      (t.cyc.refreshReq = true ∨ t.cyc.active = true) ∧
      t = { s with
        rx := s.rx.idle, lastErr := .ok, wq := s.wq.tail
        cnt := { s.cnt with txnOk := s.cnt.txnOk + 1, cycles := t.cnt.cycles }
        irqStatus := t.irqStatus, cyc := t.cyc, txn := t.txn, tx := { s.tx with buf := t.tx.buf }
        ackExp := t.ackExp, seq := t.seq, unit := t.unit, step := t.step
        listenMs := t.listenMs } ∧
      (∀ h rest, s.wq.tail = h :: rest → s.drainMs < s.cfg.tDrain.toNat →
        t = { s with
          rx := s.rx.idle, lastErr := .ok, wq := h :: rest
          cnt := { s.cnt with txnOk := s.cnt.txnOk + 1 }
          cyc := { s.cyc with refreshReq := true }
          tx := { s.tx with buf := buildWriteRequest s.cfg.slaveAddr h.start h.vals }
          ackExp := ackFrame s.cfg.slaveAddr h.start (BitVec.ofNat 8 h.vals.length)
          txn := some { addr := s.cfg.slaveAddr, start := h.start
                        op := .write h.vals .drainWrite }
          seq := .guard }) ∧
      (s.wq.tail = [] ∨ s.cfg.tDrain.toNat ≤ s.drainMs →
        t = readStep { s with
          rx := s.rx.idle, lastErr := .ok, wq := s.wq.tail, txn := none
          cnt := { s.cnt with txnOk := s.cnt.txnOk + 1 }
          cyc := { s.cyc with refreshReq := true }
          irqStatus := if s.wq.tail = [] then s.irqStatus ||| 0x080#9 else s.irqStatus
          unit := .read, step := 0 })

/-- R605, R668–R670, R672: a WRITE_ACK that acknowledges a step of a mode sequence completes: the next
step runs; after the last step MODE_DONE is raised, a latched sub-slot that was not rewritten is no
longer pending, one that was rewritten stays so with its new code, and the turn goes on with the next
unit. The frame runs as an instruction at its end (log 7). -/
def Obligations.ModeWriteAcknowledged : Prop :=
  ∀ (a : Byte) (reg v : U16) (s : State),
    s.rx.owner = .answer → s.rx.ferr = false → s.stopPending = none →
    s.txn = some { addr := a, start := reg, op := .write [v] .modeWrite } →
    s.ackExp = ackFrame a reg 1#8 →
    ∃ t, exec (.writeAck a reg 1#8) s = .next t ∧ t.lastErr = .ok ∧
      t.cnt.txnOk = s.cnt.txnOk + 1 ∧ t.wq = s.wq ∧ t.vr = s.vr ∧ t.arb = s.arb ∧
      (s.step ≠ lastStep s.run →
        (∀ r w, program s.run (s.step + 1) = some (.write r w) →
          t = { s with
            rx := s.rx.idle, lastErr := .ok
            cnt := { s.cnt with txnOk := s.cnt.txnOk + 1 }
            cyc := { s.cyc with refreshReq := true }
            step := s.step + 1
            tx := { s.tx with buf := buildWriteRequest s.cfg.slaveAddr r [w] }
            ackExp := ackFrame s.cfg.slaveAddr r 1#8
            txn := some { addr := s.cfg.slaveAddr, start := r, op := .write [w] .modeWrite }
            seq := .guard }) ∧
        (program s.run (s.step + 1) = some .pause →
          t = { s with
            rx := s.rx.idle, lastErr := .ok, txn := none
            cnt := { s.cnt with txnOk := s.cnt.txnOk + 1 }
            cyc := { s.cyc with refreshReq := true }
            step := s.step + 1, seq := .pause, pauseMs := 0 })) ∧
      (s.step = lastStep s.run → ∀ z : Zone, s.unit = unitOf z →
        irqSet .modeDone t = true ∧
        (slotsOf z t).zone.code = (slotsOf z s).zone.code ∧
        (slotsOf z t).hot.code = (slotsOf z s).hot.code ∧
        ((slotsOf z t).zone.pend = true ↔ (slotsOf z s).zone.pend = true ∧
          ¬(s.run.latZ = true ∧ (slotsOf z s).zone.dirty = false)) ∧
        ((slotsOf z t).hot.pend = true ↔ (slotsOf z s).hot.pend = true ∧
          ¬(s.run.latH = true ∧ (slotsOf z s).hot.dirty = false))) ∧
      (s.step = lastStep s.run →
        let done := { s with
          rx := s.rx.idle, lastErr := .ok, txn := none
          cnt := { s.cnt with txnOk := s.cnt.txnOk + 1 }
          cyc := { s.cyc with refreshReq := true }
          irqStatus := s.irqStatus ||| 0x040#9 }
        let cleared := fun (latched : Bool) (b : SubSlot) =>
          if latched = true ∧ b.dirty = false then { b with pend := false } else b
        let served := fun x : ZoneSlots =>
          { x with zone := cleared s.run.latZ x.zone, hot := cleared s.run.latH x.hot }
        (s.unit = .mode0 → t = advance .mode1 { done with slots0 := served s.slots0 }) ∧
        (s.unit = .mode1 → t = advance .drain { done with slots1 := served s.slots1 }))

/-- R605, R503, R621: the frame that ends in the answer window ends the transaction, whoever sent it:
with FE_UART when a byte had a framing error, else with the code of the read's or the ack's check.
R607, R620, R671, R677, R683: a failed transaction leaves its work: queue, sub-slots, values and
partitions read stay, LAST_TXN_ERR, CNT_TXN_FAIL and TXN_FAIL report it, and the sequencer goes on: a
mode unit with the next unit, the drain with the read step, a read with the end of the turn. -/
def Obligations.FailedTransactionKeepsWork : Prop :=
  (∀ (n : Nat) (f : List Byte) (x : Txn) (s : State), s.rx.owner = .answer → s.txn = some x →
    deliverFrame n f s = txnEnd
      (if s.rx.ferr = true then .error .feUart
       else match x.op with
         | .read c _ => parseAnswer n f x.addr 0x03#8 c.toNat
         | .write _ _ =>
           if n = 8 ∧ f.take 8 = s.ackExp.take 8 then .ok [] else .error .ackMismatch)
      { s with rx := s.rx.idle }) ∧
  ∀ (x : Txn) (e : Ferr) (s : State), s.txn = some x → e ≠ .ok → s.stopPending = none →
    let t := txnEnd (.error e) s
    let failed := { s with
      lastErr := e, txn := none
      cnt := { s.cnt with txnFail := s.cnt.txnFail + 1 }
      irqStatus := s.irqStatus ||| 0x002#9 }
    let wrote := { failed with cyc := { s.cyc with refreshReq := true } }
    t.lastErr = e ∧ t.cnt.txnFail = s.cnt.txnFail + 1 ∧ t.cnt.txnOk = s.cnt.txnOk ∧
    irqSet .txnFail t = true ∧ irqSet .modeDone t = irqSet .modeDone s ∧
    irqSet .wqEmpty t = irqSet .wqEmpty s ∧ t.wq = s.wq ∧ t.vr = s.vr ∧
    (∀ z : Zone, (slotsOf z t).zone.pend = (slotsOf z s).zone.pend ∧
      (slotsOf z t).zone.code = (slotsOf z s).zone.code ∧
      (slotsOf z t).hot.pend = (slotsOf z s).hot.pend ∧
      (slotsOf z t).hot.code = (slotsOf z s).hot.code) ∧
    (∀ c p b, x.op = .read c (.partRead p b) →
      t = { failed with
        txnDiscard := false, seq := .listen, listenMs := 0, unit := .mode0, step := 0 }) ∧
    (∀ z : Zone, s.unit = unitOf z → let next : TurnUnit := if z = .z0 then .mode1 else .drain
      (∀ c, x.op = .read c .modeRead → t = advance next failed) ∧
      ∀ vals, x.op = .write vals .modeWrite → t = advance next wrote) ∧
    (∀ vals, x.op = .write vals .drainWrite →
      t = readStep { wrote with unit := .read, step := 0 }) ∧
    ∀ vals p, x.op = .write vals p → t.cyc.refreshReq = true ∨ t.cyc.active = true

/-- R607, R577: a stop that waited is performed when the transaction ends, after its result is recorded
and applied: a partition's values are stored (R683), an acknowledged queue entry is removed (R677), a
completed mode sequence raises MODE_DONE and clears its pending bits (R670); a failed transaction, and a
read discarded by INVALIDATE, leave their work. Then the turn is aborted, and REINIT also discards an
open frame and restarts `quiet_ms`; nothing else changes. That a cycle completes also when no partition
is effective any more is the model's reading (log 22). -/
def Obligations.PendingStopFollowsResult : Prop :=
  ∀ (x : Txn) (why : StopReason) (r : Except Ferr (List U16)) (s : State),
    s.txn = some x → s.stopPending = some why → s.seq = .wait →
    let t := txnEnd r s
    let recorded := { s with
      lastErr := codeOf r
      cnt := if codeOf r = .ok then { s.cnt with txnOk := s.cnt.txnOk + 1 }
        else { s.cnt with txnFail := s.cnt.txnFail + 1 }
      irqStatus := if codeOf r = .ok then s.irqStatus else s.irqStatus ||| 0x002#9 }
    let wrote := { recorded with cyc := { s.cyc with refreshReq := true } }
    let stopped := fun u : State => { u with
      stopPending := none, seq := .off, unit := .mode0, step := 0, arb := .init
      txn := none, txnDiscard := false
      lastAbort := if why = .stop then .stop else .reinit
      cnt := { u.cnt with aborts := u.cnt.aborts + 1 }
      irqStatus := u.irqStatus ||| 0x004#9 ||| (if s.arb = .init then 0#9 else 0x020#9)
      rx := { s.rx with
        owner := if why = .reinit ∧ s.rx.inFrame = true then .discard else s.rx.owner }
      quietMs := if why = .reinit then 0 else s.quietMs }
    (t.seq = .off ∧ t.arb = .init ∧ t.txn = none ∧ t.stopPending = none ∧
      t.lastErr = codeOf r ∧ t.lastAbort = why.abort ∧ t.cnt.aborts = s.cnt.aborts + 1 ∧
      irqSet .turnAbort t = true ∧ ∀ vals p, x.op = .write vals p → t.cyc.refreshReq = true) ∧
    (∀ e, r = .error e → (∀ c p, x.op = .read c p → t = stopped recorded) ∧
      ∀ vals p, x.op = .write vals p → t = stopped wrote) ∧
    (∀ c v vs, x.op = .read c .modeRead → r = .ok (v :: vs) → let m := mergeMode s.run v
      t = stopped { recorded with
        run := { s.run with val := m, af := m &&& 0x002F#16 == 0x0001#16 } }) ∧
    (∀ c p b vals, x.op = .read c (.partRead p b) → r = .ok vals →
      (s.txnDiscard = true → t = stopped recorded) ∧
      (s.txnDiscard = false →
        let done := s.cyc.doneMask ||| (1#8 <<< p.val)
        let stored := { recorded with vr := memWriteAll s.vr b.toNat vals }
        (effEn s &&& ~~~done ≠ 0#8 →
          t = stopped { stored with cyc := { s.cyc with doneMask := done } }) ∧
        (effEn s &&& ~~~done = 0#8 → t = stopped { stored with
          cyc := { s.cyc with active := false, doneMask := done, valid := true, sinceMs := 0 }
          cnt := { recorded.cnt with cycles := s.cnt.cycles + 1 }
          irqStatus := recorded.irqStatus ||| 0x001#9 }))) ∧
    (∀ vals vs, x.op = .write vals .modeWrite → r = .ok vs →
      (s.step ≠ lastStep s.run → t = stopped wrote) ∧
      (s.step = lastStep s.run →
        let cleared := fun (latched : Bool) (b : SubSlot) =>
          if latched = true ∧ b.dirty = false then { b with pend := false } else b
        let served := fun y : ZoneSlots =>
          { y with zone := cleared s.run.latZ y.zone, hot := cleared s.run.latH y.hot }
        let done := { wrote with irqStatus := wrote.irqStatus ||| 0x040#9 }
        (s.unit = .mode0 → t = stopped { done with slots0 := served s.slots0 }) ∧
        (s.unit = .mode1 → t = stopped { done with slots1 := served s.slots1 }))) ∧
    ∀ vals vs, x.op = .write vals .drainWrite → r = .ok vs → t = stopped { wrote with
      wq := s.wq.tail
      irqStatus := if s.wq.tail = [] then wrote.irqStatus ||| 0x080#9 else wrote.irqStatus }

/-! ## The turn (45_turn_sequencer.md) -/

/-- R650, R651: the units of a turn in their order, from any unit on: a zone whose requests wait and are
enabled, zone 0 before zone 1; the drain, while the queue holds an entry and the budget is not 0; the
read step. A turn starts with the first unit, and one with nothing to do ends at once and sends
nothing. -/
def Obligations.TurnRunsUnitsInOrder : Prop :=
  ∀ s : State,
    let ready := fun z : Zone => modeEnOf z s = true ∧
      ((slotsOf z s).zone.pend = true ∨ (slotsOf z s).hot.pend = true)
    turnStart s = advance .mode0 s ∧
    (ready .z0 → advance .mode0 s = modeStart .z0 s ∧ (modeStart .z0 s).unit = .mode0 ∧
      (modeStart .z0 s).seq = .guard) ∧
    (∀ u : TurnUnit, (u = .mode0 ∧ ¬ready .z0 ∨ u = .mode1) → ready .z1 →
      advance u s = modeStart .z1 s ∧ (modeStart .z1 s).unit = .mode1 ∧
        (modeStart .z1 s).seq = .guard) ∧
    (∀ u : TurnUnit,
      (u = .mode0 ∧ ¬ready .z0 ∧ ¬ready .z1 ∨ u = .mode1 ∧ ¬ready .z1 ∨ u = .drain) →
      (∀ h rest, s.wq = h :: rest → 0 < s.cfg.tDrain.toNat → advance u s = { s with
        unit := .drain, step := 0, drainMs := 0
        tx := { s.tx with buf := buildWriteRequest s.cfg.slaveAddr h.start h.vals }
        ackExp := ackFrame s.cfg.slaveAddr h.start (BitVec.ofNat 8 h.vals.length)
        txn := some { addr := s.cfg.slaveAddr, start := h.start, op := .write h.vals .drainWrite }
        seq := .guard }) ∧
      (s.wq = [] ∨ s.cfg.tDrain.toNat = 0 →
        advance u s = readStep { s with drainMs := 0, step := 0, unit := .read }) ∧
      (s.wq = [] ∨ s.cfg.tDrain.toNat = 0 → effEn s = 0#8 → s.cyc.active = false →
        advance u s = { s with
          drainMs := 0, seq := .listen, listenMs := 0, unit := .mode0, step := 0 })) ∧
    advance .read s = readStep { s with step := 0, unit := .read }

/-- R680–R682: the read step: when a cycle starts, is dropped or completes, when the turn ends (R653),
and that the lowest pending partition is read. R685: a step clears refresh_req only when a read cycle
starts in it, or by reset. -/
def Obligations.ReadStepTakesLowestPartition : Prop :=
  (∀ s t : State, step s = .next t → s.cyc.refreshReq = true → t.cyc.refreshReq = false →
    (nextEvent s).1 = .reset ∨
    (((nextEvent s).1 = .tickMs ∨ (nextEvent s).1 = .tickBit) ∧
      s.cyc.active = false ∧ irqSet .cycleDone s = false ∧ effEn s ≠ 0#8 ∧
      t.cyc.active = true ∧ t.cyc.doneMask = 0#8 ∧ t.unit = .read ∧ t.seq = .guard)) ∧
  ∀ s : State,
    let due := s.cyc.active = false ∧ irqSet .cycleDone s = false ∧ effEn s ≠ 0#8 ∧
      (s.cyc.refreshReq = true ∨ s.cyc.valid = false ∨
        1000 * s.cfg.cyclePeriod.toNat ≤ s.cyc.sinceMs)
    ∃ u : State,
      (due → u = { s with
        cyc := { s.cyc with active := true, doneMask := 0#8, refreshReq := false } }) ∧
      (¬due → u = s) ∧
      let pend := effEn u &&& ~~~u.cyc.doneMask
      let ended := fun x : State =>
        { x with seq := .listen, listenMs := 0, unit := .mode0, step := 0 }
      (u.cyc.active = false → readStep s = ended u) ∧
      (u.cyc.active = true → effEn u = 0#8 →
        readStep s = ended { u with cyc := { u.cyc with active := false } }) ∧
      (u.cyc.active = true → effEn u ≠ 0#8 → pend = 0#8 → readStep s = ended { u with
        cyc := { u.cyc with active := false, valid := true, sinceMs := 0 }
        cnt := { u.cnt with cycles := u.cnt.cycles + 1 }
        irqStatus := u.irqStatus ||| 0x001#9 }) ∧
      ∀ p : Fin 8, u.cyc.active = true → pend.getLsbD p.val = true →
        (∀ q, q < p.val → pend.getLsbD q = false) →
        readStep s = { u with
          tx := { u.tx with buf := buildReadRequest u.cfg.slaveAddr (u.cfg.pt[p]).start
                                     ((u.cfg.pt[p]).count.setWidth 16) }
          txn := some { addr := u.cfg.slaveAddr, start := (u.cfg.pt[p]).start
                        op := .read ((u.cfg.pt[p]).count.setWidth 16)
                          (.partRead p (u.cfg.pt[p]).base) }
          seq := .guard }

/-- R665: a mode sequence starts by latching its zone's sub-slots and registers and beginning the read
of the mode register; the sub-slots stay pending and are no longer dirty, and nothing else changes. -/
def Obligations.ModeSequenceStarts : Prop :=
  ∀ (z : Zone) (s : State), let t := modeStart z s
    let sl := slotsOf z s
    t.unit = unitOf z ∧ t.step = 0 ∧ t.seq = .guard ∧
    t.run = { s.run with
      latZ := sl.zone.pend, zcode := sl.zone.code, latH := sl.hot.pend, hcode := sl.hot.code
      modeReg := modeRegOf z s, dcReg := dcRegOf z s } ∧
    slotsOf z t = { zone := { sl.zone with dirty := false }, hot := { sl.hot with dirty := false } } ∧
    t.tx.buf = buildReadRequest s.cfg.slaveAddr (modeRegOf z s) 1#16 ∧
    t.txn = some { addr := s.cfg.slaveAddr, start := modeRegOf z s, op := .read 1#16 .modeRead } ∧
    (∀ y : Zone, y ≠ z → slotsOf y t = slotsOf y s) ∧
    t = { s with
      unit := t.unit, step := t.step, seq := t.seq, run := t.run, slots0 := t.slots0
      slots1 := t.slots1, tx := { s.tx with buf := t.tx.buf }, txn := t.txn }

/-- R666: bit by bit, the merged value takes a latched sub-field's code under its mask and keeps every
other bit of the value read; R673: each named zone code survives the zone merge; R667: the two
programs, step by step. -/
def Obligations.ModeMergeAndPrograms : Prop :=
  (∀ (r : ModeRun) (m : U16) (k : Nat), k < 16 →
    (mergeMode r m).getLsbD k =
      if r.latZ = true ∧ (0x002F#16).getLsbD k = true then r.zcode.getLsbD k
      else if r.latH = true ∧ (0x0050#16).getLsbD k = true then r.hcode.getLsbD k
      else m.getLsbD k) ∧
  (∀ c ∈ [0x08#8, 0x24#8, 0x22#8, 0x04#8, 0x02#8, 0x01#8], ∀ (r : ModeRun) (m : U16),
    r.latZ = true → r.zcode = c →
    mergeMode r m &&& 0x002F#16 = c.setWidth 16 ∧ c &&& 0x50#8 = 0#8) ∧
  ∀ r : ModeRun,
    (r.af = true → [1, 2, 3, 4, 5, 6].map (program r) =
      [some (.write r.dcReg 1#16), some .pause, some (.write r.dcReg 0#16),
       some (.write r.modeReg r.val), none, none] ∧ lastStep r = 4) ∧
    (r.af = false → [1, 2, 3, 4, 5, 6].map (program r) =
      [some (.write r.modeReg r.val), some (.write r.dcReg 1#16), some (.write r.modeReg r.val),
       some .pause, some (.write r.modeReg r.val), some (.write r.dcReg 0#16)] ∧ lastStep r = 6)

/-! ## Steps and the whole machine -/

/-- R18, R19: a step handles the environment's next event, or the time source's next tick when none
waits: `tick_bit` number j at 5j + TICK_PHASE, `tick_ms` number k at 48k, `tick_bit` first when both
fall together. The queue of events is the model's (log 1). -/
def Obligations.StepTakesNextEvent : Prop :=
  (∀ (e : Event) (rest : List Event) (s : State), s.script = e :: rest →
    step s = handle exec e { s with script := rest }) ∧
  ∀ s : State, s.script = [] →
    (5 * (s.bitTicks + 1) + Config.tickPhase.val ≤ 48 * (s.msTicks + 1) →
      step s = handle exec .tickBit s) ∧
    (48 * (s.msTicks + 1) < 5 * (s.bitTicks + 1) + Config.tickPhase.val →
      step s = handle exec .tickMs s)

/-- A step runs the decoded instruction. A step that writes CMD records the word and runs the
instruction it decodes to. A step in which the open frame ends runs the instruction its bytes decode
to in their role: the `tick_bit` is counted and `rx_gap` holds its new value when the instruction
runs. `u` is the state once the event has left the queue of events, which changes nothing else. That a
frame runs as an instruction, decoded in its role at its end, is the model's reading (log 7, DEDUCED);
the queue of events is the model's choice (log 1, DESIGN CHOICE). -/
def Obligations.StepRunsDecodedInstruction : Prop :=
  (∀ (a : BitVec 14) (w : Word) (i : Instr) (s u : State),
    nextEvent s = (.busWrite a w, u) → hostReg a = some .cmd → decodeCommand w = .ok i →
    step s = exec i { u with host := { u.host with cmd := w } }) ∧
  (∀ (role : FrameRole) (i : Instr) (s u : State),
    nextEvent s = (.tickBit, u) → u.seq ≠ .tx → u.rx.inFrame = true → u.rx.active = false →
    u.rx.ferr = false → u.rx.len = u.rx.buf.length → u.rx.len ≤ 256 →
    u.cfg.tGap.toNat ≤ min (u.rx.gap + 1) 255 → openRole u = some role →
    decodeFrame role u.rx.buf = .ok i →
    step s = exec i { u with
      bitTicks := u.bitTicks + 1
      rx := { u.rx with gap := min (u.rx.gap + 1) 255 } }) ∧
  ∀ s : State, (nextEvent s).2 = { s with script := s.script.tail }

/-- R805: every event in every state has a next state: no fault, no refusal, no stuck state. -/
def Obligations.EveryEventHasNextState : Prop :=
  (∀ (e : Event) (s : State), ∃ t, handle exec e s = .next t) ∧ ∀ s : State, ∃ t, step s = .next t

/-- R912: from a state that meets the invariant, while CYCLE_DONE = 1 the value memory changes only by
a CTRL write with INVALIDATE or by reset. -/
def Obligations.ValuesStableWhileCycleDone : Prop :=
  ∀ s t : State, Inv s → irqSet .cycleDone s = true → step s = .next t → t.vr ≠ s.vr →
    (nextEvent s).1 = .reset ∨
    ∃ a v, (nextEvent s).1 = .busWrite a v ∧ hostReg a = some .ctrl ∧ v.getLsbD 2 = true

/-- R134, R677, R900: from a state that meets the invariant, the write queue changes only by a command
that appends one entry, by a drain write acknowledged, or by reset. -/
def Obligations.QueueChangesOnlyByRule : Prop :=
  ∀ s t : State, Inv s → step s = .next t → t.wq ≠ s.wq →
    ((nextEvent s).1 = .reset ∧ t.wq = []) ∨
    (∃ a v e, (nextEvent s).1 = .busWrite a v ∧ hostReg a = some .cmd ∧ t.wq = s.wq ++ [e]) ∨
    ((nextEvent s).1 = .tickBit ∧ s.seq = .wait ∧ t.wq = s.wq.tail ∧ t.lastErr = .ok ∧
      ∃ x vals, s.txn = some x ∧ x.op = .write vals .drainWrite)

/-- The invariant holds after reset. -/
def Obligations.InvariantHoldsAtReset : Prop :=
  Inv State.reset

/-- Every step keeps the invariant, from every state that meets it: the memories keep their canonical
form and bounds, registers their legal ranges, RXB and TXB what 10_state.md says they hold, and the
sequencer, the arbiter, the driver and the transaction stay in step with each other. -/
def Obligations.StepKeepsInvariant : Prop :=
  ∀ s t : State, Inv s → step s = .next t → Inv t
end

