-- ==== Sys2Proof/Laws/Bytes.lean ====
section
/-! SUPPORT. The small lemmas of Machine/Bytes.lean: the kernel helpers are the identity, and the
byte-order functions undo each other. -/

namespace Sys2Proof.Machine

/-- `settle` applies its continuation. -/
@[simp] theorem settle_eq {w : Nat} {α : Type} (a : BitVec w) (k : BitVec w → α) :
    settle a k = k a := by
  have h : BitVec.ofNat w a.toNat = a := by simp
  unfold settle
  split
  · rename_i heq; rw [← heq, h]
  · rename_i n heq; rw [show n + 1 = a.toNat from heq.symm, h]

/-- `settleNat` applies its continuation. -/
@[simp] theorem settleNat_eq {α : Type} (n : Nat) (k : Nat → α) : settleNat n k = k n := by
  cases n <;> rfl

@[simp] theorem hi_be16 (a b : Byte) : hi (be16 a b) = a := by
  unfold hi be16
  ext i h
  simp only [BitVec.getElem_extractLsb', BitVec.getLsbD_append]
  rw [if_neg (by omega), show 8 + i - 8 = i by omega, BitVec.getLsbD_eq_getElem h]

@[simp] theorem lo_be16 (a b : Byte) : lo (be16 a b) = b := by
  unfold lo be16
  ext i h
  simp only [BitVec.getElem_extractLsb', BitVec.getLsbD_append]
  rw [if_pos (by omega), show 0 + i = i by omega, BitVec.getLsbD_eq_getElem h]

@[simp] theorem be16_hi_lo (v : U16) : be16 (hi v) (lo v) = v := by
  unfold hi lo be16
  ext i h
  simp only [BitVec.getElem_append, BitVec.getElem_extractLsb']
  split
  · simp_all
  · rw [show 8 + (i - 8) = i by omega]; simp_all

@[simp] theorem le16_lo_hi (v : U16) : le16 (lo v) (hi v) = v := be16_hi_lo v

/-- Two bytes are a 16-bit value's in one way only. -/
theorem be16_inj {a b c d : Byte} (h : be16 a b = be16 c d) : a = c ∧ b = d :=
  ⟨by simpa using congrArg hi h, by simpa using congrArg lo h⟩

@[simp] theorem valueBytes_length (vs : List U16) : (valueBytes vs).length = 2 * vs.length := by
  induction vs with
  | nil => rfl
  | cons v vs ih => simp only [valueBytes, List.length_cons, ih]; omega

/-- The values read from data bytes are the values those bytes were made of, whatever follows. -/
@[simp] theorem valuesOf_valueBytes (vs : List U16) (rest : List Byte) :
    valuesOf vs.length (valueBytes vs ++ rest) = vs := by
  induction vs with
  | nil => rfl
  | cons v vs ih => simp [valueBytes, valuesOf, ih]

/-- No more values are read than asked for. -/
theorem valuesOf_length_le (n : Nat) (l : List Byte) : (valuesOf n l).length ≤ n := by
  induction n, l using valuesOf.induct with
  | case1 => simp [valuesOf]
  | case2 n a b rest ih => simpa [valuesOf] using ih
  | case3 n l h => unfold valuesOf; split <;> simp_all

/-- With enough bytes, exactly as many values are read as asked for. -/
theorem valuesOf_length (n : Nat) (l : List Byte) (h : 2 * n ≤ l.length) :
    (valuesOf n l).length = n := by
  induction n, l using valuesOf.induct with
  | case1 => simp [valuesOf]
  | case2 n a b rest ih =>
    simp only [List.length_cons] at h
    simp [valuesOf, ih (by omega)]
  | case3 n l hl =>
    match l, hl with
    | [], _ => simp at h
    | [_], _ => simp only [List.length_singleton] at h; omega
    | a :: b :: rest, hl => exact (hl a b rest rfl).elim

/-- With enough bytes, the values' bytes are the bytes they were read from. -/
theorem valueBytes_valuesOf (n : Nat) (l : List Byte) (h : 2 * n ≤ l.length) :
    valueBytes (valuesOf n l) = l.take (2 * n) := by
  induction n, l using valuesOf.induct with
  | case1 => simp [valuesOf, valueBytes]
  | case2 n a b rest ih =>
    simp only [List.length_cons] at h
    rw [show 2 * (n + 1) = 2 * n + 1 + 1 by omega]
    simp [valuesOf, valueBytes, ih (by omega)]
  | case3 n l hl =>
    match l, hl with
    | [], _ => simp at h
    | [_], _ => simp only [List.length_singleton] at h; omega
    | a :: b :: rest, hl => exact (hl a b rest rfl).elim

/-- The register number is the exact sum modulo 65536 (R409). -/
@[simp] theorem registerAt_toNat (start : U16) (i : Nat) :
    (registerAt start i).toNat = (start.toNat + i) % 65536 := by
  simp [registerAt, BitVec.toNat_add, BitVec.toNat_ofNat]

@[simp] theorem registerValues_length (start : U16) (vals : List U16) :
    (registerValues start vals).length = vals.length := by
  simp [registerValues]

/-- Value `i` belongs to register `(start + i) mod 65536`, and values keep their order (R506). -/
theorem registerValues_getElem? (start : U16) (vals : List U16) (i : Nat) :
    (registerValues start vals)[i]? = vals[i]?.map (fun v => (registerAt start i, v)) := by
  simp [registerValues, List.getElem?_zipIdx, Function.comp_def]

end Sys2Proof.Machine
end

