-- ==== Sys2Proof/Laws/Crc.lean ====
section
/-! SUPPORT. The small lemmas of Machine/Crc.lean. -/

namespace Sys2Proof.Machine

@[simp] theorem crcBits_zero (acc : U16) : crcBits 0 acc = acc := rfl

@[simp] theorem crcBits_succ (n : Nat) (acc : U16) :
    crcBits (n + 1) acc = crcBits n (crcBit acc) := by
  simp [crcBits]

@[simp] theorem crcFrom_nil (acc : U16) : crcFrom acc [] = acc := rfl

@[simp] theorem crcFrom_cons (acc : U16) (b : Byte) (l : List Byte) :
    crcFrom acc (b :: l) = crcFrom (crcStep acc b) l := by
  simp [crcFrom]

/-- The byte steps of a list, as a fold (R402). -/
theorem crcFrom_eq_foldl (acc : U16) (l : List Byte) : crcFrom acc l = l.foldl crcStep acc := by
  induction l generalizing acc with
  | nil => rfl
  | cons b l ih => simp [ih]

theorem crcFrom_append (acc : U16) (l m : List Byte) :
    crcFrom acc (l ++ m) = crcFrom (crcFrom acc l) m := by
  simp [crcFrom_eq_foldl]

theorem crcBytes_eq (l : List Byte) : crcBytes l = [lo (crc16 l), hi (crc16 l)] := by
  simp [crcBytes]

@[simp] theorem crcBytes_length (l : List Byte) : (crcBytes l).length = 2 := by
  simp [crcBytes]

/-- A bit step is linear: it distributes over exclusive or. -/
theorem crcBit_xor (a b : U16) : crcBit (a ^^^ b) = crcBit a ^^^ crcBit b := by
  have key : ∀ (p q : Bool) (x y m : U16),
      (if (p ^^ q) then (x ^^^ y) ^^^ m else x ^^^ y) =
        (if p then x ^^^ m else x) ^^^ (if q then y ^^^ m else y) := by
    intro p q x y m
    have bits : ∀ p q x y c : Bool, (if (p ^^ q) then (x ^^ y) ^^ c else x ^^ y) =
        ((if p then x ^^ c else x) ^^ (if q then y ^^ c else y)) := by decide
    ext i h
    simpa [apply_ite (fun v : U16 => v[i])] using bits p q x[i] y[i] m[i]
  unfold crcBit
  rw [BitVec.getLsbD_xor, BitVec.ushiftRight_xor_distrib]
  exact key _ _ _ _ _

end Sys2Proof.Machine
end

