-- ==== Sys2Proof/Laws/Frames.lean ====
section
/-! SUPPORT. The small lemmas of Machine/Frames.lean: lengths and first bytes of the built frames. -/

namespace Sys2Proof.Machine

@[simp] theorem framed_length (checked tail : List Byte) :
    (framed checked tail).length = checked.length + 2 + tail.length := by
  simp [framed, Nat.add_assoc]

@[simp] theorem readRequestHead_length (a : Byte) (s c : U16) :
    (readRequestHead a s c).length = 6 := rfl

@[simp] theorem writeRequestHead_length (a : Byte) (s : U16) (n : Nat) :
    (writeRequestHead a s n).length = 7 := rfl

@[simp] theorem ackHead_length (a : Byte) (s : U16) (n : Byte) : (ackHead a s n).length = 6 := rfl

/-- The checked bytes of a frame are its first bytes. -/
@[simp] theorem framed_take (checked tail : List Byte) :
    (framed checked tail).take checked.length = checked := by
  simp [framed]

end Sys2Proof.Machine
end

