-- ==== Sys2Proof/Machine/HostProgram.lean ====
section
/-! DEFINITION. Host programs (30_encoding.md R320, R321): the bus accesses each line asks for, and a
program running beside the block. The text of a line is not modelled, only what it means (log 23). -/

namespace Sys2Proof.Machine

/-! ## Names -/

/-- The byte offset of a mapped word, none for an index outside its memory (R210). -/
def HostReg.offset (r : HostReg) : Option Nat :=
  match r with
  | .ptRange p => some (0x100 + 8 * p.val)
  | .ptBase p => some (0x104 + 8 * p.val)
  | .hbuf i => if i < 256 then some (0x400 + 4 * i) else none
  | .hval i => if i < Config.hvalWords then some (0x800 + 4 * i) else none
  | .snoopBuf i => if i < 256 then some (0xC00 + 4 * i) else none
  | .vr i => if i < Config.vrWords then some (0x1000 + 4 * i) else none
  | .id | .version | .ctrl | .status | .irqStatus | .irqEnable | .slaveAddr | .cmd | .cmdStatus
  | .arg | .hlen | .crcAcc | .pres0 | .pres1 | .wqStatus | .modeStatus | .modeSlots | .modeCfg0
  | .modeCfg1 | .modeEn | .tQuiet | .tTxn | .tDrain | .tPause | .tIdle | .tListen | .cyclePeriod
  | .tGap | .cntFrames | .cntSnoopErr | .cntTxnOk | .cntTxnFail | .cntCycles | .cntAborts
  | .snoopLen | .snoopRes0 | .snoopRes1 | .cycleStatus =>
    (registerMap.find? (fun e => e.2 == r)).map (fun e => e.1)

/-- What a bus operation names: a register or memory word, or a raw offset (R320). -/
inductive Place where
  | name (r : HostReg)
  | raw (a : BitVec 14)
deriving DecidableEq, Repr

/-- The bus address of a place. -/
def Place.address : Place → Option (BitVec 14)
  | .name r => r.offset.map (BitVec.ofNat 14)
  | .raw a => some a

/-! ## Commands -/

/-- A command line with its operands as written (R320). -/
inductive CommandLine where
  | nop
  | crcInit
  | crcByte (b : Nat)
  | crcBuf (l : Nat)
  | bldRead (l : Nat)
  | bldWrite (l : Nat)
  | bldAck (l : Nat)
  | prsReq
  | prsAns (l : Nat)
  | wqPush (l : Nat)
  | modeReq (z s code : Nat)
deriving DecidableEq, Repr

/-- `op | (l << 16)`, an error when l does not fit (R320). -/
def wordWithL (op l : Nat) : Option Word :=
  if l ≤ 511 then some (BitVec.ofNat 32 (op ||| l <<< 16)) else none

/-- The word a command line assembles to; none is an assembly error (R320). -/
def CommandLine.word : CommandLine → Option Word
  | .nop => some 0x00000000#32
  | .crcInit => some 0x00000001#32
  | .crcByte b => if b ≤ 255 then some (BitVec.ofNat 32 (0x02 ||| b <<< 8)) else none
  | .crcBuf l => wordWithL 0x03 l
  | .bldRead l => wordWithL 0x10 l
  | .bldWrite l => wordWithL 0x11 l
  | .bldAck l => wordWithL 0x12 l
  | .prsReq => some 0x00000020#32
  | .prsAns l => wordWithL 0x21 l
  | .wqPush l => wordWithL 0x30 l
  | .modeReq z s code =>
    if z ≤ 1 ∧ s ≤ 1 ∧ code ≤ 255 then
      some (BitVec.ofNat 32 (0x31 ||| code <<< 8 ||| (z ||| s <<< 1) <<< 16))
    else none

/-! ## Lines -/

/-- One line of a host program: a bus operation, a command, or a pseudo-instruction (R320, R321). An
omitted operand of `arg` is 0. `reinit`, `invalidate` and `refresh` say whether EN stays 1. An operand
that does not fit its field has no line here: R320 makes that an assembly error for the commands, and
for the bus operations and pseudo-instructions it is the model's choice (log 24). So is an empty list of
operands for `hbuf`, `hval` and `crcBytes` (log 25). -/
inductive Line where
  | wr (p : Place) (v : Word)
  | rd (p : Place)
  | command (c : CommandLine)
  | arg (addr : Byte) (start : U16) (func : Byte)
  | hbuf (bs : List Byte)
  | hval (vs : List U16)
  | crcBytes (bs : List Byte)
  | enable
  | disable
  | reinit (en : Bool)
  | invalidate (en : Bool)
  | refresh (en : Bool)
  | ackIrq (m : Word)
  | poll (p : Place) (mask value : Word)
  | part (p : Fin 8) (start : U16) (count : BitVec 7) (base : BitVec 9)
  | zone (z : Zone) (mode dc : U16)
deriving DecidableEq, Repr

/-- What a line asks the bus for: BusWrite, BusRead, or BusRead until (result & mask) == value
(R320, R321). -/
inductive Access where
  | write (a : BitVec 14) (v : Word)
  | read (a : BitVec 14)
  | poll (a : BitVec 14) (mask value : Word)
deriving DecidableEq, Repr

/-- `wr NAME, v`. -/
def wrName (r : HostReg) (v : Word) : Option Access :=
  r.offset.map (fun a => .write (BitVec.ofNat 14 a) v)

/-- `wr NAME[i], v` for the words of a list from index `i` on. -/
def wrWords (name : Nat → HostReg) : Nat → List Word → Option (List Access)
  | _, [] => some []
  | i, v :: vs => do
    let e ← wrName (name i) v
    let es ← wrWords name (i + 1) vs
    return e :: es

/-- `wr CTRL, action` with EN as the program has it (R321). -/
def wrCtrl (action : Word) (en : Bool) : Option (List Access) :=
  (wrName .ctrl (action ||| (if en then 1#32 else 0#32))).map (fun e => [e])

/-- MODE_EN with a zone's bit set (R321). -/
def setModeEn (old : Word) : Zone → Word
  | .z0 => old ||| 1#32
  | .z1 => old ||| 2#32

/-- MODE_CFG of a zone. -/
def modeCfgName : Zone → HostReg
  | .z0 => .modeCfg0
  | .z1 => .modeCfg1

/-- The accesses of a line; `modeEn` is the MODE_EN value the program left last (R320, R321). none is
an assembly error. -/
def Line.accesses (modeEn : Word) : Line → Option (List Access)
  | .wr p v => p.address.map (fun a => [.write a v])
  | .rd p => p.address.map (fun a => [.read a])
  | .command c => do return [← wrName .cmd (← c.word)]
  | .arg addr start func => do return [← wrName .arg (func ++ addr ++ start)]
  | .hbuf bs => do
    let ws ← wrWords .hbuf 0 (bs.map (fun b => b.setWidth 32))
    return ws ++ [← wrName .hlen (BitVec.ofNat 32 bs.length)]
  | .hval vs => wrWords .hval 0 (vs.map (fun v => v.setWidth 32))
  | .crcBytes bs => bs.mapM (fun b => do wrName .cmd (← (CommandLine.crcByte b.toNat).word))
  | .enable => do return [← wrName .ctrl 1#32]
  | .disable => do return [← wrName .ctrl 0#32]
  | .reinit en => wrCtrl 2#32 en
  | .invalidate en => wrCtrl 4#32 en
  | .refresh en => wrCtrl 8#32 en
  | .ackIrq m => do return [← wrName .irqStatus m]
  | .poll p mask value => p.address.map (fun a => [.poll a mask value])
  | .part p start count base => do
    let range ← wrName (.ptRange p) (0#9 ++ count ++ start)
    let base ← wrName (.ptBase p) (0x80000000#32 ||| base.setWidth 32)
    return [range, base]
  | .zone z mode dc => do
    let cfg ← wrName (modeCfgName z) (dc ++ mode)
    let en ← wrName .modeEn (setModeEn modeEn z)
    return [cfg, en]

/-- The MODE_EN value after an access, as the assembler tracks it: a write that selects MODE_EN, by
whichever of its byte offsets, leaves the two bits R117 gives it (R205, R321). -/
def Access.modeEnAfter (modeEn : Word) : Access → Word
  | .write a v => if hostReg a = some .modeEn then v &&& 3#32 else modeEn
  | .read _ | .poll _ _ _ => modeEn

/-- The accesses of a program, line by line, from MODE_EN's last value. -/
def assembleFrom (modeEn : Word) : List Line → Option (List Access)
  | [] => some []
  | l :: ls => do
    let xs ← l.accesses modeEn
    let rest ← assembleFrom (xs.foldl Access.modeEnAfter modeEn) ls
    return xs ++ rest

/-- The accesses of a program that starts after reset, where MODE_EN is 0 (R117, R321). -/
def assemble (p : List Line) : Option (List Access) := assembleFrom 0#32 p

/-! ## A program beside the block -/

/-- The bus event of an access; a poll reads. -/
def Access.event : Access → Event
  | .write a v => .busWrite a v
  | .read a => .busRead a
  | .poll a _ _ => .busRead a

/-- The access ends with the event it makes in `s`: a poll only when the word read, under the mask, is
the value (R321). -/
def Access.ends (s : State) : Access → Bool
  | .write _ _ => true
  | .read _ => true
  | .poll a mask value => busReadData a s &&& mask == value

/-- A host program with its block: the accesses still to make, in order. -/
structure HostRun where
  todo : List Access
  block : State
deriving DecidableEq, Repr

/-- The program makes its next access, before any other event that waits: the access leaves the
program if it ends with this event, and else is made again. A program at its end makes none. -/
def HostRun.access (h : HostRun) : Host.Outcome HostRun Fault Refusal :=
  match h.todo with
  | [] => .next h
  | x :: rest =>
    match step { h.block with script := x.event :: h.block.script } with
    | .next t => .next { todo := if x.ends h.block then rest else x :: rest, block := t }
    | .fault e => .fault e
    | .refused e => .refused e

/-- The block takes a step of its own between two accesses of the program. -/
def HostRun.wait (h : HostRun) : Host.Outcome HostRun Fault Refusal :=
  match step h.block with
  | .next t => .next { h with block := t }
  | .fault e => .fault e
  | .refused e => .refused e

/-- Who moves next. How many events pass between two accesses is the environment's (R18). -/
inductive Mover where
  | host
  | block
deriving DecidableEq, Repr

/-- A program and its block, moving in the order given. -/
def HostRun.run : List Mover → HostRun → Host.Outcome HostRun Fault Refusal
  | [], h => .next h
  | m :: ms, h =>
    match (match m with | .host => h.access | .block => h.wait) with
    | .next h1 => HostRun.run ms h1
    | .fault e => .fault e
    | .refused e => .refused e

end Sys2Proof.Machine
end

