-- ==== Sys2Proof/Laws/HostProgram.lean ====
section
/-! SUPPORT. The laws of host programs: names and offsets agree, the assembler never emits an illegal
word (R320), and what a poll does (R321). -/

namespace Sys2Proof.Machine

/-- A name stands for the offset at which the address map has the word (R210, R320). -/
theorem offset_mapped {r : HostReg} {a : Nat} (h : r.offset = some a) : mappedAt a = some r := by
  cases r with
  | ptRange p =>
    have all : ∀ p : Fin 8, mappedAt (0x100 + 8 * p.val) = some (.ptRange p) := by decide +kernel
    cases h; exact all p
  | ptBase p =>
    have all : ∀ p : Fin 8, mappedAt (0x104 + 8 * p.val) = some (.ptBase p) := by decide +kernel
    cases h; exact all p
  | hbuf i =>
    have all : ∀ i : Fin 256, mappedAt (0x400 + 4 * i.val) = some (.hbuf i) := by decide +kernel
    obtain ⟨hi, h⟩ : i < 256 ∧ 0x400 + 4 * i = a := by simpa [HostReg.offset] using h
    exact h ▸ all ⟨i, hi⟩
  | hval i =>
    have all : ∀ i : Fin 128, mappedAt (0x800 + 4 * i.val) = some (.hval i) := by decide +kernel
    obtain ⟨hi, h⟩ : i < 128 ∧ 0x800 + 4 * i = a := by simpa [HostReg.offset] using h
    exact h ▸ all ⟨i, hi⟩
  | snoopBuf i =>
    have all : ∀ i : Fin 256, mappedAt (0xC00 + 4 * i.val) = some (.snoopBuf i) := by
      decide +kernel
    obtain ⟨hi, h⟩ : i < 256 ∧ 0xC00 + 4 * i = a := by simpa [HostReg.offset] using h
    exact h ▸ all ⟨i, hi⟩
  | vr i =>
    have all : ∀ i : Fin 512, mappedAt (0x1000 + 4 * i.val) = some (.vr i) := by decide +kernel
    obtain ⟨hi, h⟩ : i < 512 ∧ 0x1000 + 4 * i = a := by simpa [HostReg.offset] using h
    exact h ▸ all ⟨i, hi⟩
  | _ => cases h; decide

/-- A word that matches a row of the opcode map decodes to a command (R302). -/
theorem decodeCommand_isOk {w : Word} {r : CommandRow} (hr : r ∈ commandRows)
    (h : w &&& r.mask = r.pattern) : (decodeCommand w).isOk := by
  have some : (commandRows.find? (fun r => w &&& r.mask == r.pattern)).isSome :=
    List.find?_isSome.2 ⟨r, hr, beq_iff_eq.2 h⟩
  obtain ⟨q, hq⟩ := Option.isSome_iff_exists.1 some
  unfold decodeCommand
  rw [hq]
  rfl

/-- A length operand in its field leaves the bits a length row checks as they are. -/
theorem wordWithL_matches {op l : Nat} {w : Word} (ho : op < 65536) (h : wordWithL op l = some w) :
    w &&& 0xFE00FFFF#32 = BitVec.ofNat 32 op := by
  unfold wordWithL at h
  split at h
  · cases h
    have hl : l <<< 16 < 2 ^ 25 := by rw [Nat.shiftLeft_eq]; omega
    apply BitVec.eq_of_getLsbD_eq
    intro i hi
    have mask : (0xFE00FFFF#32).getLsbD i = (decide (i < 16) || decide (25 ≤ i)) := by
      have all : ∀ i : Fin 32, (0xFE00FFFF#32).getLsbD i = (decide (i.val < 16) || decide (25 ≤ i.val)) := by
        decide
      exact all ⟨i, hi⟩
    have high : 25 ≤ i → (l <<< 16).testBit i = false := fun hi =>
      Nat.testBit_lt_two_pow (lt_of_lt_of_le hl (Nat.pow_le_pow_right (by decide) hi))
    have low : i < 16 → (l <<< 16).testBit i = false := fun hi => by
      simp [Nat.testBit_shiftLeft, Nat.not_le.2 hi]
    have opHigh : 16 ≤ i → op.testBit i = false := fun hi =>
      Nat.testBit_lt_two_pow (lt_of_lt_of_le ho (Nat.pow_le_pow_right (by decide : 0 < 2) hi))
    rw [BitVec.getLsbD_and, mask]
    simp only [BitVec.getLsbD_ofNat, hi, decide_true, Bool.true_and, Nat.testBit_or]
    by_cases h16 : i < 16
    · simp [low h16, h16]
    · by_cases h25 : 25 ≤ i
      · simp [high h25, h25]
      · simp [h16, h25, opHigh (by omega)]
  · cases h

/-- The assembler never emits an illegal word (R320). -/
theorem word_legal {c : CommandLine} {w : Word} (h : c.word = some w) :
    (decodeCommand w).isOk := by
  cases c with
  | nop => cases h; decide
  | crcInit => cases h; decide
  | prsReq => cases h; decide
  | crcByte b =>
    have all : ∀ b : Fin 256, BitVec.ofNat 32 (0x02 ||| b.val <<< 8) &&& 0xFFFF00FF#32 = 2#32 := by
      decide +kernel
    simp only [CommandLine.word] at h
    split at h
    · cases h
      exact decodeCommand_isOk (r := commandRows[2]) (List.getElem_mem _) (all ⟨b, by omega⟩)
    · cases h
  | modeReq z s code =>
    have all : ∀ (z s : Fin 2) (code : Fin 256),
        BitVec.ofNat 32 (0x31 ||| code.val <<< 8 ||| (z.val ||| s.val <<< 1) <<< 16) &&&
          0xFFFC00FF#32 = 0x31#32 := by
      decide +kernel
    simp only [CommandLine.word] at h
    split at h
    · cases h
      exact decodeCommand_isOk (r := commandRows[10]) (List.getElem_mem _)
        (all ⟨z, by omega⟩ ⟨s, by omega⟩ ⟨code, by omega⟩)
    · cases h
  | crcBuf l =>
    exact decodeCommand_isOk (r := commandRows[3]) (List.getElem_mem _)
      (wordWithL_matches (by decide) h)
  | bldRead l =>
    exact decodeCommand_isOk (r := commandRows[4]) (List.getElem_mem _)
      (wordWithL_matches (by decide) h)
  | bldWrite l =>
    exact decodeCommand_isOk (r := commandRows[5]) (List.getElem_mem _)
      (wordWithL_matches (by decide) h)
  | bldAck l =>
    exact decodeCommand_isOk (r := commandRows[6]) (List.getElem_mem _)
      (wordWithL_matches (by decide) h)
  | prsAns l =>
    exact decodeCommand_isOk (r := commandRows[8]) (List.getElem_mem _)
      (wordWithL_matches (by decide) h)
  | wqPush l =>
    exact decodeCommand_isOk (r := commandRows[9]) (List.getElem_mem _)
      (wordWithL_matches (by decide) h)

/-! ## Polls -/

/-- Each access of a poll reads once and changes nothing in the block but its output log; the poll
leaves the program exactly when the word read, under the mask, is the value (R321). -/
theorem poll_access (a : BitVec 14) (mask value : Word) (rest : List Access) (s : State) :
    HostRun.access { todo := .poll a mask value :: rest, block := s } = .next
      { todo := if busReadData a s &&& mask = value then rest else .poll a mask value :: rest
        block := { s with outLog := s.outLog ++ [.busData (busReadData a s)] } } := by
  by_cases h : busReadData a s &&& mask = value
  · simp only [HostRun.access, Access.ends, h, beq_self_eq_true, if_true]; rfl
  · simp only [HostRun.access, Access.ends, h, beq_false_of_ne h, Bool.false_eq_true, if_false]; rfl

/-- A poll that ends has read a word that is the value under the mask. -/
theorem poll_ends {a : BitVec 14} {mask value : Word} {rest : List Access} {s : State} {h : HostRun}
    (hn : HostRun.access { todo := .poll a mask value :: rest, block := s } = .next h)
    (he : h.todo = rest) :
    ∃ w, h.block.outLog = s.outLog ++ [.busData w] ∧ w &&& mask = value := by
  rw [poll_access] at hn
  cases hn
  refine ⟨_, rfl, ?_⟩
  by_contra hv
  simp [hv] at he

/-- A write or a read is made once. -/
theorem access_once (x : Access) (rest : List Access) (s : State) (h : ∀ a m v, x ≠ .poll a m v) :
    HostRun.access { todo := x :: rest, block := s } =
      match handle exec x.event s with
      | .next t => .next { todo := rest, block := t }
      | .fault e => .fault e
      | .refused e => .refused e := by
  cases x with
  | poll a m v => exact absurd rfl (h a m v)
  | write _ _ | read _ => rfl

end Sys2Proof.Machine
end

