-- ==== Sys2Proof/Laws/Memory.lean ====
section
/-! SUPPORT. The laws of the memories: read after write, and every write keeps the canonical form. -/

namespace Sys2Proof.Machine

variable {α : Type}

@[simp] theorem memRead_nil (i : Nat) : memRead ([] : Memory α) i = none := rfl

/-- A read after a write to the same word gives the value written. -/
@[simp] theorem memRead_memWrite_self (m : Memory α) (i : Nat) (v : α) :
    memRead (memWrite m i v) i = some v := by
  induction m with
  | nil => simp [memWrite, memRead]
  | cons c m ih =>
    obtain ⟨k, w⟩ := c
    unfold memWrite
    split
    · simp [memRead]
    · split
      · simp [memRead]
      · rename_i h1 h2
        simp [memRead, ih, Ne.symm h2]

/-- A write leaves every other word alone. -/
theorem memRead_memWrite_other (m : Memory α) {i j : Nat} (v : α) (h : j ≠ i) :
    memRead (memWrite m i v) j = memRead m j := by
  induction m with
  | nil => simp [memWrite, memRead, Ne.symm h]
  | cons c m ih =>
    obtain ⟨k, w⟩ := c
    unfold memWrite
    split
    · simp [memRead, Ne.symm h]
    · split
      · subst_vars; simp [memRead, Ne.symm h]
      · simp only [memRead, ih]

/-- A word inside a block write holds its value, a word outside it is unchanged. -/
theorem memRead_memWriteAll (m : Memory α) (i : Nat) (vs : List α) (j : Nat) :
    memRead (memWriteAll m i vs) j =
      if i ≤ j then (vs[j - i]?).or (memRead m j) else memRead m j := by
  induction vs generalizing m i with
  | nil => simp [memWriteAll]
  | cons v vs ih =>
    rw [memWriteAll, ih]
    by_cases h1 : i + 1 ≤ j
    · have h2 : j - i = (j - (i + 1)) + 1 := by omega
      simp [h1, show i ≤ j by omega, h2, memRead_memWrite_other m v (show j ≠ i by omega)]
    · by_cases h3 : j = i
      · subst h3; simp
      · simp [h1, show ¬i ≤ j by omega, memRead_memWrite_other m v h3]

/-- A word in the block. -/
theorem memRead_memWriteAll_in (m : Memory α) (i : Nat) (vs : List α) (k : Nat)
    (h : k < vs.length) : memRead (memWriteAll m i vs) (i + k) = some vs[k] := by
  simp [memRead_memWriteAll, h]

/-- A word outside the block. -/
theorem memRead_memWriteAll_out (m : Memory α) (i : Nat) (vs : List α) (j : Nat)
    (h : j < i ∨ i + vs.length ≤ j) : memRead (memWriteAll m i vs) j = memRead m j := by
  rw [memRead_memWriteAll]
  split
  · rw [List.getElem?_eq_none (by omega)]; simp
  · rfl

/-- The indexes of a canonical memory above a bound all exceed it. -/
def memAbove (k : Nat) : Memory α → Prop
  | [] => True
  | (j, _) :: _ => k < j

/-- The canonical form, one entry at a time. -/
theorem memWf_cons (k : Nat) (w : α) (m : Memory α) :
    Memory.wf ((k, w) :: m) = true ↔ memAbove k m ∧ Memory.wf m = true := by
  cases m with
  | nil => simp [Memory.wf, memAbove]
  | cons c m => obtain ⟨j, x⟩ := c; simp [Memory.wf, memAbove]

theorem memAbove_memWrite {k i : Nat} (m : Memory α) (v : α) (h : memAbove k m) (hi : k < i) :
    memAbove k (memWrite m i v) := by
  cases m with
  | nil => exact hi
  | cons c m =>
    obtain ⟨j, w⟩ := c
    unfold memWrite
    split
    · exact hi
    · split
      · exact hi
      · exact h

/-- A write keeps the canonical form. -/
theorem memWrite_wf (m : Memory α) (i : Nat) (v : α) (h : Memory.wf m = true) :
    Memory.wf (memWrite m i v) = true := by
  induction m with
  | nil => rfl
  | cons c m ih =>
    obtain ⟨k, w⟩ := c
    rw [memWf_cons] at h
    unfold memWrite
    split
    · rw [memWf_cons, memWf_cons]; exact ⟨by assumption, h⟩
    · split
      · subst_vars; rw [memWf_cons]; exact h
      · rw [memWf_cons]; exact ⟨memAbove_memWrite m v h.1 (by omega), ih h.2⟩

/-- A block write keeps the canonical form. -/
theorem memWriteAll_wf (m : Memory α) (i : Nat) (vs : List α) (h : Memory.wf m = true) :
    Memory.wf (memWriteAll m i vs) = true := by
  induction vs generalizing m i with
  | nil => exact h
  | cons v vs ih => exact ih _ _ (memWrite_wf m i v h)

/-- A write inside the memory's size stays inside it. -/
theorem memWrite_below {n : Nat} (m : Memory α) (i : Nat) (v : α) (h : memBelow n m = true)
    (hi : i < n) : memBelow n (memWrite m i v) = true := by
  induction m with
  | nil => simpa [memWrite, memBelow] using hi
  | cons c m ih =>
    obtain ⟨k, w⟩ := c
    simp only [memBelow, List.all_cons, Bool.and_eq_true, decide_eq_true_eq] at h ih ⊢
    unfold memWrite
    split
    · simp [hi, h.1]; simpa using h.2
    · split
      · simp [hi]; simpa using h.2
      · simp only [List.all_cons, Bool.and_eq_true, decide_eq_true_eq]; exact ⟨h.1, ih h.2⟩

/-- A block write inside the memory's size stays inside it. -/
theorem memWriteAll_below {n : Nat} (m : Memory α) (i : Nat) (vs : List α)
    (h : memBelow n m = true) (hi : i + vs.length ≤ n) :
    memBelow n (memWriteAll m i vs) = true := by
  induction vs generalizing m i with
  | nil => exact h
  | cons v vs ih =>
    simp only [List.length_cons] at hi
    exact ih _ _ (memWrite_below m i v h (by omega)) (by omega)

end Sys2Proof.Machine
end

