-- ==== Sys2Proof/Laws/State.lean ====
section
/-! SUPPORT. For every shared update of Machine/Ops.lean, each field of the state after it: so that no
proof unfolds a record update. -/

namespace Sys2Proof.Machine

/-! ## raiseIrq -/

@[simp] theorem raiseIrq_en (f : IrqFlag) (s : State) : (raiseIrq f s).en = s.en := rfl
@[simp] theorem raiseIrq_irqStatus (f : IrqFlag) (s : State) :
    (raiseIrq f s).irqStatus = s.irqStatus ||| f.mask := rfl
@[simp] theorem raiseIrq_irqEnable (f : IrqFlag) (s : State) :
    (raiseIrq f s).irqEnable = s.irqEnable := rfl
@[simp] theorem raiseIrq_host (f : IrqFlag) (s : State) : (raiseIrq f s).host = s.host := rfl
@[simp] theorem raiseIrq_cfg (f : IrqFlag) (s : State) : (raiseIrq f s).cfg = s.cfg := rfl
@[simp] theorem raiseIrq_cnt (f : IrqFlag) (s : State) : (raiseIrq f s).cnt = s.cnt := rfl
@[simp] theorem raiseIrq_snoop (f : IrqFlag) (s : State) : (raiseIrq f s).snoop = s.snoop := rfl
@[simp] theorem raiseIrq_vr (f : IrqFlag) (s : State) : (raiseIrq f s).vr = s.vr := rfl
@[simp] theorem raiseIrq_arb (f : IrqFlag) (s : State) : (raiseIrq f s).arb = s.arb := rfl
@[simp] theorem raiseIrq_quietMs (f : IrqFlag) (s : State) :
    (raiseIrq f s).quietMs = s.quietMs := rfl
@[simp] theorem raiseIrq_rx (f : IrqFlag) (s : State) : (raiseIrq f s).rx = s.rx := rfl
@[simp] theorem raiseIrq_tx (f : IrqFlag) (s : State) : (raiseIrq f s).tx = s.tx := rfl
@[simp] theorem raiseIrq_wq (f : IrqFlag) (s : State) : (raiseIrq f s).wq = s.wq := rfl
@[simp] theorem raiseIrq_slots0 (f : IrqFlag) (s : State) : (raiseIrq f s).slots0 = s.slots0 := rfl
@[simp] theorem raiseIrq_slots1 (f : IrqFlag) (s : State) : (raiseIrq f s).slots1 = s.slots1 := rfl
@[simp] theorem raiseIrq_run (f : IrqFlag) (s : State) : (raiseIrq f s).run = s.run := rfl
@[simp] theorem raiseIrq_cyc (f : IrqFlag) (s : State) : (raiseIrq f s).cyc = s.cyc := rfl
@[simp] theorem raiseIrq_seq (f : IrqFlag) (s : State) : (raiseIrq f s).seq = s.seq := rfl
@[simp] theorem raiseIrq_unit (f : IrqFlag) (s : State) : (raiseIrq f s).unit = s.unit := rfl
@[simp] theorem raiseIrq_step (f : IrqFlag) (s : State) : (raiseIrq f s).step = s.step := rfl
@[simp] theorem raiseIrq_listenMs (f : IrqFlag) (s : State) :
    (raiseIrq f s).listenMs = s.listenMs := rfl
@[simp] theorem raiseIrq_drainMs (f : IrqFlag) (s : State) :
    (raiseIrq f s).drainMs = s.drainMs := rfl
@[simp] theorem raiseIrq_pauseMs (f : IrqFlag) (s : State) :
    (raiseIrq f s).pauseMs = s.pauseMs := rfl
@[simp] theorem raiseIrq_txnMs (f : IrqFlag) (s : State) : (raiseIrq f s).txnMs = s.txnMs := rfl
@[simp] theorem raiseIrq_txn (f : IrqFlag) (s : State) : (raiseIrq f s).txn = s.txn := rfl
@[simp] theorem raiseIrq_ackExp (f : IrqFlag) (s : State) : (raiseIrq f s).ackExp = s.ackExp := rfl
@[simp] theorem raiseIrq_ansSeen (f : IrqFlag) (s : State) :
    (raiseIrq f s).ansSeen = s.ansSeen := rfl
@[simp] theorem raiseIrq_stopPending (f : IrqFlag) (s : State) :
    (raiseIrq f s).stopPending = s.stopPending := rfl
@[simp] theorem raiseIrq_txnDiscard (f : IrqFlag) (s : State) :
    (raiseIrq f s).txnDiscard = s.txnDiscard := rfl
@[simp] theorem raiseIrq_lastErr (f : IrqFlag) (s : State) :
    (raiseIrq f s).lastErr = s.lastErr := rfl
@[simp] theorem raiseIrq_lastAbort (f : IrqFlag) (s : State) :
    (raiseIrq f s).lastAbort = s.lastAbort := rfl
@[simp] theorem raiseIrq_script (f : IrqFlag) (s : State) : (raiseIrq f s).script = s.script := rfl
@[simp] theorem raiseIrq_outLog (f : IrqFlag) (s : State) : (raiseIrq f s).outLog = s.outLog := rfl
@[simp] theorem raiseIrq_msTicks (f : IrqFlag) (s : State) :
    (raiseIrq f s).msTicks = s.msTicks := rfl
@[simp] theorem raiseIrq_bitTicks (f : IrqFlag) (s : State) :
    (raiseIrq f s).bitTicks = s.bitTicks := rfl
@[simp] theorem raiseIrq_memEpoch (f : IrqFlag) (s : State) :
    (raiseIrq f s).memEpoch = s.memEpoch := rfl
@[simp] theorem raiseIrq_vrEpoch (f : IrqFlag) (s : State) :
    (raiseIrq f s).vrEpoch = s.vrEpoch := rfl

/-! ## ackIrq -/

@[simp] theorem ackIrq_en (v : Word) (s : State) : (ackIrq v s).en = s.en := rfl
@[simp] theorem ackIrq_irqStatus (v : Word) (s : State) :
    (ackIrq v s).irqStatus = s.irqStatus &&& ~~~(v.extractLsb' 0 9) := rfl
@[simp] theorem ackIrq_irqEnable (v : Word) (s : State) :
    (ackIrq v s).irqEnable = s.irqEnable := rfl
@[simp] theorem ackIrq_host (v : Word) (s : State) : (ackIrq v s).host = s.host := rfl
@[simp] theorem ackIrq_cfg (v : Word) (s : State) : (ackIrq v s).cfg = s.cfg := rfl
@[simp] theorem ackIrq_cnt (v : Word) (s : State) : (ackIrq v s).cnt = s.cnt := rfl
@[simp] theorem ackIrq_snoop (v : Word) (s : State) : (ackIrq v s).snoop = s.snoop := rfl
@[simp] theorem ackIrq_vr (v : Word) (s : State) : (ackIrq v s).vr = s.vr := rfl
@[simp] theorem ackIrq_arb (v : Word) (s : State) : (ackIrq v s).arb = s.arb := rfl
@[simp] theorem ackIrq_quietMs (v : Word) (s : State) : (ackIrq v s).quietMs = s.quietMs := rfl
@[simp] theorem ackIrq_rx (v : Word) (s : State) : (ackIrq v s).rx = s.rx := rfl
@[simp] theorem ackIrq_tx (v : Word) (s : State) : (ackIrq v s).tx = s.tx := rfl
@[simp] theorem ackIrq_wq (v : Word) (s : State) : (ackIrq v s).wq = s.wq := rfl
@[simp] theorem ackIrq_slots0 (v : Word) (s : State) : (ackIrq v s).slots0 = s.slots0 := rfl
@[simp] theorem ackIrq_slots1 (v : Word) (s : State) : (ackIrq v s).slots1 = s.slots1 := rfl
@[simp] theorem ackIrq_run (v : Word) (s : State) : (ackIrq v s).run = s.run := rfl
@[simp] theorem ackIrq_cyc (v : Word) (s : State) : (ackIrq v s).cyc = s.cyc := rfl
@[simp] theorem ackIrq_seq (v : Word) (s : State) : (ackIrq v s).seq = s.seq := rfl
@[simp] theorem ackIrq_unit (v : Word) (s : State) : (ackIrq v s).unit = s.unit := rfl
@[simp] theorem ackIrq_step (v : Word) (s : State) : (ackIrq v s).step = s.step := rfl
@[simp] theorem ackIrq_listenMs (v : Word) (s : State) : (ackIrq v s).listenMs = s.listenMs := rfl
@[simp] theorem ackIrq_drainMs (v : Word) (s : State) : (ackIrq v s).drainMs = s.drainMs := rfl
@[simp] theorem ackIrq_pauseMs (v : Word) (s : State) : (ackIrq v s).pauseMs = s.pauseMs := rfl
@[simp] theorem ackIrq_txnMs (v : Word) (s : State) : (ackIrq v s).txnMs = s.txnMs := rfl
@[simp] theorem ackIrq_txn (v : Word) (s : State) : (ackIrq v s).txn = s.txn := rfl
@[simp] theorem ackIrq_ackExp (v : Word) (s : State) : (ackIrq v s).ackExp = s.ackExp := rfl
@[simp] theorem ackIrq_ansSeen (v : Word) (s : State) : (ackIrq v s).ansSeen = s.ansSeen := rfl
@[simp] theorem ackIrq_stopPending (v : Word) (s : State) :
    (ackIrq v s).stopPending = s.stopPending := rfl
@[simp] theorem ackIrq_txnDiscard (v : Word) (s : State) :
    (ackIrq v s).txnDiscard = s.txnDiscard := rfl
@[simp] theorem ackIrq_lastErr (v : Word) (s : State) : (ackIrq v s).lastErr = s.lastErr := rfl
@[simp] theorem ackIrq_lastAbort (v : Word) (s : State) :
    (ackIrq v s).lastAbort = s.lastAbort := rfl
@[simp] theorem ackIrq_script (v : Word) (s : State) : (ackIrq v s).script = s.script := rfl
@[simp] theorem ackIrq_outLog (v : Word) (s : State) : (ackIrq v s).outLog = s.outLog := rfl
@[simp] theorem ackIrq_msTicks (v : Word) (s : State) : (ackIrq v s).msTicks = s.msTicks := rfl
@[simp] theorem ackIrq_bitTicks (v : Word) (s : State) : (ackIrq v s).bitTicks = s.bitTicks := rfl
@[simp] theorem ackIrq_memEpoch (v : Word) (s : State) : (ackIrq v s).memEpoch = s.memEpoch := rfl
@[simp] theorem ackIrq_vrEpoch (v : Word) (s : State) : (ackIrq v s).vrEpoch = s.vrEpoch := rfl

/-! ## beginCommand -/

@[simp] theorem beginCommand_en (s : State) : (beginCommand s).en = s.en := rfl
@[simp] theorem beginCommand_irqStatus (s : State) : (beginCommand s).irqStatus = s.irqStatus := rfl
@[simp] theorem beginCommand_irqEnable (s : State) : (beginCommand s).irqEnable = s.irqEnable := rfl
@[simp] theorem beginCommand_host (s : State) :
    (beginCommand s).host = { s.host with ferr := .ok } := rfl
@[simp] theorem beginCommand_cfg (s : State) : (beginCommand s).cfg = s.cfg := rfl
@[simp] theorem beginCommand_cnt (s : State) : (beginCommand s).cnt = s.cnt := rfl
@[simp] theorem beginCommand_snoop (s : State) : (beginCommand s).snoop = s.snoop := rfl
@[simp] theorem beginCommand_vr (s : State) : (beginCommand s).vr = s.vr := rfl
@[simp] theorem beginCommand_arb (s : State) : (beginCommand s).arb = s.arb := rfl
@[simp] theorem beginCommand_quietMs (s : State) : (beginCommand s).quietMs = s.quietMs := rfl
@[simp] theorem beginCommand_rx (s : State) : (beginCommand s).rx = s.rx := rfl
@[simp] theorem beginCommand_tx (s : State) : (beginCommand s).tx = s.tx := rfl
@[simp] theorem beginCommand_wq (s : State) : (beginCommand s).wq = s.wq := rfl
@[simp] theorem beginCommand_slots0 (s : State) : (beginCommand s).slots0 = s.slots0 := rfl
@[simp] theorem beginCommand_slots1 (s : State) : (beginCommand s).slots1 = s.slots1 := rfl
@[simp] theorem beginCommand_run (s : State) : (beginCommand s).run = s.run := rfl
@[simp] theorem beginCommand_cyc (s : State) : (beginCommand s).cyc = s.cyc := rfl
@[simp] theorem beginCommand_seq (s : State) : (beginCommand s).seq = s.seq := rfl
@[simp] theorem beginCommand_unit (s : State) : (beginCommand s).unit = s.unit := rfl
@[simp] theorem beginCommand_step (s : State) : (beginCommand s).step = s.step := rfl
@[simp] theorem beginCommand_listenMs (s : State) : (beginCommand s).listenMs = s.listenMs := rfl
@[simp] theorem beginCommand_drainMs (s : State) : (beginCommand s).drainMs = s.drainMs := rfl
@[simp] theorem beginCommand_pauseMs (s : State) : (beginCommand s).pauseMs = s.pauseMs := rfl
@[simp] theorem beginCommand_txnMs (s : State) : (beginCommand s).txnMs = s.txnMs := rfl
@[simp] theorem beginCommand_txn (s : State) : (beginCommand s).txn = s.txn := rfl
@[simp] theorem beginCommand_ackExp (s : State) : (beginCommand s).ackExp = s.ackExp := rfl
@[simp] theorem beginCommand_ansSeen (s : State) : (beginCommand s).ansSeen = s.ansSeen := rfl
@[simp] theorem beginCommand_stopPending (s : State) :
    (beginCommand s).stopPending = s.stopPending := rfl
@[simp] theorem beginCommand_txnDiscard (s : State) :
    (beginCommand s).txnDiscard = s.txnDiscard := rfl
@[simp] theorem beginCommand_lastErr (s : State) : (beginCommand s).lastErr = s.lastErr := rfl
@[simp] theorem beginCommand_lastAbort (s : State) : (beginCommand s).lastAbort = s.lastAbort := rfl
@[simp] theorem beginCommand_script (s : State) : (beginCommand s).script = s.script := rfl
@[simp] theorem beginCommand_outLog (s : State) : (beginCommand s).outLog = s.outLog := rfl
@[simp] theorem beginCommand_msTicks (s : State) : (beginCommand s).msTicks = s.msTicks := rfl
@[simp] theorem beginCommand_bitTicks (s : State) : (beginCommand s).bitTicks = s.bitTicks := rfl
@[simp] theorem beginCommand_memEpoch (s : State) : (beginCommand s).memEpoch = s.memEpoch := rfl
@[simp] theorem beginCommand_vrEpoch (s : State) : (beginCommand s).vrEpoch = s.vrEpoch := rfl

/-! ## finish -/

@[simp] theorem finish_en (c : Cerr) (s : State) :
    (finish c s).en = s.en := by
  unfold finish; split <;> rfl
@[simp] theorem finish_irqStatus (c : Cerr) (s : State) :
    (finish c s).irqStatus = if c = .ok then s.irqStatus else s.irqStatus ||| IrqFlag.cmdErr.mask := by
  unfold finish; split <;> rfl
@[simp] theorem finish_irqEnable (c : Cerr) (s : State) :
    (finish c s).irqEnable = s.irqEnable := by
  unfold finish; split <;> rfl
@[simp] theorem finish_host (c : Cerr) (s : State) :
    (finish c s).host = { s.host with cerr := c } := by
  unfold finish; split <;> rfl
@[simp] theorem finish_cfg (c : Cerr) (s : State) :
    (finish c s).cfg = s.cfg := by
  unfold finish; split <;> rfl
@[simp] theorem finish_cnt (c : Cerr) (s : State) :
    (finish c s).cnt = s.cnt := by
  unfold finish; split <;> rfl
@[simp] theorem finish_snoop (c : Cerr) (s : State) :
    (finish c s).snoop = s.snoop := by
  unfold finish; split <;> rfl
@[simp] theorem finish_vr (c : Cerr) (s : State) :
    (finish c s).vr = s.vr := by
  unfold finish; split <;> rfl
@[simp] theorem finish_arb (c : Cerr) (s : State) :
    (finish c s).arb = s.arb := by
  unfold finish; split <;> rfl
@[simp] theorem finish_quietMs (c : Cerr) (s : State) :
    (finish c s).quietMs = s.quietMs := by
  unfold finish; split <;> rfl
@[simp] theorem finish_rx (c : Cerr) (s : State) :
    (finish c s).rx = s.rx := by
  unfold finish; split <;> rfl
@[simp] theorem finish_tx (c : Cerr) (s : State) :
    (finish c s).tx = s.tx := by
  unfold finish; split <;> rfl
@[simp] theorem finish_wq (c : Cerr) (s : State) :
    (finish c s).wq = s.wq := by
  unfold finish; split <;> rfl
@[simp] theorem finish_slots0 (c : Cerr) (s : State) :
    (finish c s).slots0 = s.slots0 := by
  unfold finish; split <;> rfl
@[simp] theorem finish_slots1 (c : Cerr) (s : State) :
    (finish c s).slots1 = s.slots1 := by
  unfold finish; split <;> rfl
@[simp] theorem finish_run (c : Cerr) (s : State) :
    (finish c s).run = s.run := by
  unfold finish; split <;> rfl
@[simp] theorem finish_cyc (c : Cerr) (s : State) :
    (finish c s).cyc = s.cyc := by
  unfold finish; split <;> rfl
@[simp] theorem finish_seq (c : Cerr) (s : State) :
    (finish c s).seq = s.seq := by
  unfold finish; split <;> rfl
@[simp] theorem finish_unit (c : Cerr) (s : State) :
    (finish c s).unit = s.unit := by
  unfold finish; split <;> rfl
@[simp] theorem finish_step (c : Cerr) (s : State) :
    (finish c s).step = s.step := by
  unfold finish; split <;> rfl
@[simp] theorem finish_listenMs (c : Cerr) (s : State) :
    (finish c s).listenMs = s.listenMs := by
  unfold finish; split <;> rfl
@[simp] theorem finish_drainMs (c : Cerr) (s : State) :
    (finish c s).drainMs = s.drainMs := by
  unfold finish; split <;> rfl
@[simp] theorem finish_pauseMs (c : Cerr) (s : State) :
    (finish c s).pauseMs = s.pauseMs := by
  unfold finish; split <;> rfl
@[simp] theorem finish_txnMs (c : Cerr) (s : State) :
    (finish c s).txnMs = s.txnMs := by
  unfold finish; split <;> rfl
@[simp] theorem finish_txn (c : Cerr) (s : State) :
    (finish c s).txn = s.txn := by
  unfold finish; split <;> rfl
@[simp] theorem finish_ackExp (c : Cerr) (s : State) :
    (finish c s).ackExp = s.ackExp := by
  unfold finish; split <;> rfl
@[simp] theorem finish_ansSeen (c : Cerr) (s : State) :
    (finish c s).ansSeen = s.ansSeen := by
  unfold finish; split <;> rfl
@[simp] theorem finish_stopPending (c : Cerr) (s : State) :
    (finish c s).stopPending = s.stopPending := by
  unfold finish; split <;> rfl
@[simp] theorem finish_txnDiscard (c : Cerr) (s : State) :
    (finish c s).txnDiscard = s.txnDiscard := by
  unfold finish; split <;> rfl
@[simp] theorem finish_lastErr (c : Cerr) (s : State) :
    (finish c s).lastErr = s.lastErr := by
  unfold finish; split <;> rfl
@[simp] theorem finish_lastAbort (c : Cerr) (s : State) :
    (finish c s).lastAbort = s.lastAbort := by
  unfold finish; split <;> rfl
@[simp] theorem finish_script (c : Cerr) (s : State) :
    (finish c s).script = s.script := by
  unfold finish; split <;> rfl
@[simp] theorem finish_outLog (c : Cerr) (s : State) :
    (finish c s).outLog = s.outLog := by
  unfold finish; split <;> rfl
@[simp] theorem finish_msTicks (c : Cerr) (s : State) :
    (finish c s).msTicks = s.msTicks := by
  unfold finish; split <;> rfl
@[simp] theorem finish_bitTicks (c : Cerr) (s : State) :
    (finish c s).bitTicks = s.bitTicks := by
  unfold finish; split <;> rfl
@[simp] theorem finish_memEpoch (c : Cerr) (s : State) :
    (finish c s).memEpoch = s.memEpoch := by
  unfold finish; split <;> rfl
@[simp] theorem finish_vrEpoch (c : Cerr) (s : State) :
    (finish c s).vrEpoch = s.vrEpoch := by
  unfold finish; split <;> rfl

/-! ## setArb -/

@[simp] theorem setArb_en (a : Arb) (s : State) :
    (setArb a s).en = s.en := by
  unfold setArb; split <;> rfl
@[simp] theorem setArb_irqStatus (a : Arb) (s : State) :
    (setArb a s).irqStatus = if s.arb = a then s.irqStatus else s.irqStatus ||| IrqFlag.stateChg.mask := by
  unfold setArb; split <;> rfl
@[simp] theorem setArb_irqEnable (a : Arb) (s : State) :
    (setArb a s).irqEnable = s.irqEnable := by
  unfold setArb; split <;> rfl
@[simp] theorem setArb_host (a : Arb) (s : State) :
    (setArb a s).host = s.host := by
  unfold setArb; split <;> rfl
@[simp] theorem setArb_cfg (a : Arb) (s : State) :
    (setArb a s).cfg = s.cfg := by
  unfold setArb; split <;> rfl
@[simp] theorem setArb_cnt (a : Arb) (s : State) :
    (setArb a s).cnt = s.cnt := by
  unfold setArb; split <;> rfl
@[simp] theorem setArb_snoop (a : Arb) (s : State) :
    (setArb a s).snoop = s.snoop := by
  unfold setArb; split <;> rfl
@[simp] theorem setArb_vr (a : Arb) (s : State) :
    (setArb a s).vr = s.vr := by
  unfold setArb; split <;> rfl
@[simp] theorem setArb_quietMs (a : Arb) (s : State) :
    (setArb a s).quietMs = s.quietMs := by
  unfold setArb; split <;> rfl
@[simp] theorem setArb_rx (a : Arb) (s : State) :
    (setArb a s).rx = s.rx := by
  unfold setArb; split <;> rfl
@[simp] theorem setArb_tx (a : Arb) (s : State) :
    (setArb a s).tx = s.tx := by
  unfold setArb; split <;> rfl
@[simp] theorem setArb_wq (a : Arb) (s : State) :
    (setArb a s).wq = s.wq := by
  unfold setArb; split <;> rfl
@[simp] theorem setArb_slots0 (a : Arb) (s : State) :
    (setArb a s).slots0 = s.slots0 := by
  unfold setArb; split <;> rfl
@[simp] theorem setArb_slots1 (a : Arb) (s : State) :
    (setArb a s).slots1 = s.slots1 := by
  unfold setArb; split <;> rfl
@[simp] theorem setArb_run (a : Arb) (s : State) :
    (setArb a s).run = s.run := by
  unfold setArb; split <;> rfl
@[simp] theorem setArb_cyc (a : Arb) (s : State) :
    (setArb a s).cyc = s.cyc := by
  unfold setArb; split <;> rfl
@[simp] theorem setArb_seq (a : Arb) (s : State) :
    (setArb a s).seq = s.seq := by
  unfold setArb; split <;> rfl
@[simp] theorem setArb_unit (a : Arb) (s : State) :
    (setArb a s).unit = s.unit := by
  unfold setArb; split <;> rfl
@[simp] theorem setArb_step (a : Arb) (s : State) :
    (setArb a s).step = s.step := by
  unfold setArb; split <;> rfl
@[simp] theorem setArb_listenMs (a : Arb) (s : State) :
    (setArb a s).listenMs = s.listenMs := by
  unfold setArb; split <;> rfl
@[simp] theorem setArb_drainMs (a : Arb) (s : State) :
    (setArb a s).drainMs = s.drainMs := by
  unfold setArb; split <;> rfl
@[simp] theorem setArb_pauseMs (a : Arb) (s : State) :
    (setArb a s).pauseMs = s.pauseMs := by
  unfold setArb; split <;> rfl
@[simp] theorem setArb_txnMs (a : Arb) (s : State) :
    (setArb a s).txnMs = s.txnMs := by
  unfold setArb; split <;> rfl
@[simp] theorem setArb_txn (a : Arb) (s : State) :
    (setArb a s).txn = s.txn := by
  unfold setArb; split <;> rfl
@[simp] theorem setArb_ackExp (a : Arb) (s : State) :
    (setArb a s).ackExp = s.ackExp := by
  unfold setArb; split <;> rfl
@[simp] theorem setArb_ansSeen (a : Arb) (s : State) :
    (setArb a s).ansSeen = s.ansSeen := by
  unfold setArb; split <;> rfl
@[simp] theorem setArb_stopPending (a : Arb) (s : State) :
    (setArb a s).stopPending = s.stopPending := by
  unfold setArb; split <;> rfl
@[simp] theorem setArb_txnDiscard (a : Arb) (s : State) :
    (setArb a s).txnDiscard = s.txnDiscard := by
  unfold setArb; split <;> rfl
@[simp] theorem setArb_lastErr (a : Arb) (s : State) :
    (setArb a s).lastErr = s.lastErr := by
  unfold setArb; split <;> rfl
@[simp] theorem setArb_lastAbort (a : Arb) (s : State) :
    (setArb a s).lastAbort = s.lastAbort := by
  unfold setArb; split <;> rfl
@[simp] theorem setArb_script (a : Arb) (s : State) :
    (setArb a s).script = s.script := by
  unfold setArb; split <;> rfl
@[simp] theorem setArb_outLog (a : Arb) (s : State) :
    (setArb a s).outLog = s.outLog := by
  unfold setArb; split <;> rfl
@[simp] theorem setArb_msTicks (a : Arb) (s : State) :
    (setArb a s).msTicks = s.msTicks := by
  unfold setArb; split <;> rfl
@[simp] theorem setArb_bitTicks (a : Arb) (s : State) :
    (setArb a s).bitTicks = s.bitTicks := by
  unfold setArb; split <;> rfl
@[simp] theorem setArb_memEpoch (a : Arb) (s : State) :
    (setArb a s).memEpoch = s.memEpoch := by
  unfold setArb; split <;> rfl
@[simp] theorem setArb_vrEpoch (a : Arb) (s : State) :
    (setArb a s).vrEpoch = s.vrEpoch := by
  unfold setArb; split <;> rfl
@[simp] theorem setArb_arb (a : Arb) (s : State) : (setArb a s).arb = a := by
  unfold setArb; split
  · assumption
  · rfl

/-! ## emit -/

@[simp] theorem emit_en (o : Output) (s : State) : (emit o s).en = s.en := rfl
@[simp] theorem emit_irqStatus (o : Output) (s : State) : (emit o s).irqStatus = s.irqStatus := rfl
@[simp] theorem emit_irqEnable (o : Output) (s : State) : (emit o s).irqEnable = s.irqEnable := rfl
@[simp] theorem emit_host (o : Output) (s : State) : (emit o s).host = s.host := rfl
@[simp] theorem emit_cfg (o : Output) (s : State) : (emit o s).cfg = s.cfg := rfl
@[simp] theorem emit_cnt (o : Output) (s : State) : (emit o s).cnt = s.cnt := rfl
@[simp] theorem emit_snoop (o : Output) (s : State) : (emit o s).snoop = s.snoop := rfl
@[simp] theorem emit_vr (o : Output) (s : State) : (emit o s).vr = s.vr := rfl
@[simp] theorem emit_arb (o : Output) (s : State) : (emit o s).arb = s.arb := rfl
@[simp] theorem emit_quietMs (o : Output) (s : State) : (emit o s).quietMs = s.quietMs := rfl
@[simp] theorem emit_rx (o : Output) (s : State) : (emit o s).rx = s.rx := rfl
@[simp] theorem emit_tx (o : Output) (s : State) : (emit o s).tx = s.tx := rfl
@[simp] theorem emit_wq (o : Output) (s : State) : (emit o s).wq = s.wq := rfl
@[simp] theorem emit_slots0 (o : Output) (s : State) : (emit o s).slots0 = s.slots0 := rfl
@[simp] theorem emit_slots1 (o : Output) (s : State) : (emit o s).slots1 = s.slots1 := rfl
@[simp] theorem emit_run (o : Output) (s : State) : (emit o s).run = s.run := rfl
@[simp] theorem emit_cyc (o : Output) (s : State) : (emit o s).cyc = s.cyc := rfl
@[simp] theorem emit_seq (o : Output) (s : State) : (emit o s).seq = s.seq := rfl
@[simp] theorem emit_unit (o : Output) (s : State) : (emit o s).unit = s.unit := rfl
@[simp] theorem emit_step (o : Output) (s : State) : (emit o s).step = s.step := rfl
@[simp] theorem emit_listenMs (o : Output) (s : State) : (emit o s).listenMs = s.listenMs := rfl
@[simp] theorem emit_drainMs (o : Output) (s : State) : (emit o s).drainMs = s.drainMs := rfl
@[simp] theorem emit_pauseMs (o : Output) (s : State) : (emit o s).pauseMs = s.pauseMs := rfl
@[simp] theorem emit_txnMs (o : Output) (s : State) : (emit o s).txnMs = s.txnMs := rfl
@[simp] theorem emit_txn (o : Output) (s : State) : (emit o s).txn = s.txn := rfl
@[simp] theorem emit_ackExp (o : Output) (s : State) : (emit o s).ackExp = s.ackExp := rfl
@[simp] theorem emit_ansSeen (o : Output) (s : State) : (emit o s).ansSeen = s.ansSeen := rfl
@[simp] theorem emit_stopPending (o : Output) (s : State) :
    (emit o s).stopPending = s.stopPending := rfl
@[simp] theorem emit_txnDiscard (o : Output) (s : State) :
    (emit o s).txnDiscard = s.txnDiscard := rfl
@[simp] theorem emit_lastErr (o : Output) (s : State) : (emit o s).lastErr = s.lastErr := rfl
@[simp] theorem emit_lastAbort (o : Output) (s : State) : (emit o s).lastAbort = s.lastAbort := rfl
@[simp] theorem emit_script (o : Output) (s : State) : (emit o s).script = s.script := rfl
@[simp] theorem emit_outLog (o : Output) (s : State) : (emit o s).outLog = s.outLog ++ [o] := rfl
@[simp] theorem emit_msTicks (o : Output) (s : State) : (emit o s).msTicks = s.msTicks := rfl
@[simp] theorem emit_bitTicks (o : Output) (s : State) : (emit o s).bitTicks = s.bitTicks := rfl
@[simp] theorem emit_memEpoch (o : Output) (s : State) : (emit o s).memEpoch = s.memEpoch := rfl
@[simp] theorem emit_vrEpoch (o : Output) (s : State) : (emit o s).vrEpoch = s.vrEpoch := rfl

/-! ## leaveTurn -/

@[simp] theorem leaveTurn_en (q : Seq) (s : State) : (leaveTurn q s).en = s.en := rfl
@[simp] theorem leaveTurn_irqStatus (q : Seq) (s : State) :
    (leaveTurn q s).irqStatus = s.irqStatus := rfl
@[simp] theorem leaveTurn_irqEnable (q : Seq) (s : State) :
    (leaveTurn q s).irqEnable = s.irqEnable := rfl
@[simp] theorem leaveTurn_host (q : Seq) (s : State) : (leaveTurn q s).host = s.host := rfl
@[simp] theorem leaveTurn_cfg (q : Seq) (s : State) : (leaveTurn q s).cfg = s.cfg := rfl
@[simp] theorem leaveTurn_cnt (q : Seq) (s : State) : (leaveTurn q s).cnt = s.cnt := rfl
@[simp] theorem leaveTurn_snoop (q : Seq) (s : State) : (leaveTurn q s).snoop = s.snoop := rfl
@[simp] theorem leaveTurn_vr (q : Seq) (s : State) : (leaveTurn q s).vr = s.vr := rfl
@[simp] theorem leaveTurn_arb (q : Seq) (s : State) : (leaveTurn q s).arb = s.arb := rfl
@[simp] theorem leaveTurn_quietMs (q : Seq) (s : State) : (leaveTurn q s).quietMs = s.quietMs := rfl
@[simp] theorem leaveTurn_rx (q : Seq) (s : State) : (leaveTurn q s).rx = s.rx := rfl
@[simp] theorem leaveTurn_tx (q : Seq) (s : State) : (leaveTurn q s).tx = s.tx := rfl
@[simp] theorem leaveTurn_wq (q : Seq) (s : State) : (leaveTurn q s).wq = s.wq := rfl
@[simp] theorem leaveTurn_slots0 (q : Seq) (s : State) : (leaveTurn q s).slots0 = s.slots0 := rfl
@[simp] theorem leaveTurn_slots1 (q : Seq) (s : State) : (leaveTurn q s).slots1 = s.slots1 := rfl
@[simp] theorem leaveTurn_run (q : Seq) (s : State) : (leaveTurn q s).run = s.run := rfl
@[simp] theorem leaveTurn_cyc (q : Seq) (s : State) : (leaveTurn q s).cyc = s.cyc := rfl
@[simp] theorem leaveTurn_seq (q : Seq) (s : State) : (leaveTurn q s).seq = q := rfl
@[simp] theorem leaveTurn_unit (q : Seq) (s : State) : (leaveTurn q s).unit = .mode0 := rfl
@[simp] theorem leaveTurn_step (q : Seq) (s : State) : (leaveTurn q s).step = 0 := rfl
@[simp] theorem leaveTurn_listenMs (q : Seq) (s : State) :
    (leaveTurn q s).listenMs = s.listenMs := rfl
@[simp] theorem leaveTurn_drainMs (q : Seq) (s : State) : (leaveTurn q s).drainMs = s.drainMs := rfl
@[simp] theorem leaveTurn_pauseMs (q : Seq) (s : State) : (leaveTurn q s).pauseMs = s.pauseMs := rfl
@[simp] theorem leaveTurn_txnMs (q : Seq) (s : State) : (leaveTurn q s).txnMs = s.txnMs := rfl
@[simp] theorem leaveTurn_txn (q : Seq) (s : State) : (leaveTurn q s).txn = s.txn := rfl
@[simp] theorem leaveTurn_ackExp (q : Seq) (s : State) : (leaveTurn q s).ackExp = s.ackExp := rfl
@[simp] theorem leaveTurn_ansSeen (q : Seq) (s : State) : (leaveTurn q s).ansSeen = s.ansSeen := rfl
@[simp] theorem leaveTurn_stopPending (q : Seq) (s : State) :
    (leaveTurn q s).stopPending = s.stopPending := rfl
@[simp] theorem leaveTurn_txnDiscard (q : Seq) (s : State) :
    (leaveTurn q s).txnDiscard = s.txnDiscard := rfl
@[simp] theorem leaveTurn_lastErr (q : Seq) (s : State) : (leaveTurn q s).lastErr = s.lastErr := rfl
@[simp] theorem leaveTurn_lastAbort (q : Seq) (s : State) :
    (leaveTurn q s).lastAbort = s.lastAbort := rfl
@[simp] theorem leaveTurn_script (q : Seq) (s : State) : (leaveTurn q s).script = s.script := rfl
@[simp] theorem leaveTurn_outLog (q : Seq) (s : State) : (leaveTurn q s).outLog = s.outLog := rfl
@[simp] theorem leaveTurn_msTicks (q : Seq) (s : State) : (leaveTurn q s).msTicks = s.msTicks := rfl
@[simp] theorem leaveTurn_bitTicks (q : Seq) (s : State) :
    (leaveTurn q s).bitTicks = s.bitTicks := rfl
@[simp] theorem leaveTurn_memEpoch (q : Seq) (s : State) :
    (leaveTurn q s).memEpoch = s.memEpoch := rfl
@[simp] theorem leaveTurn_vrEpoch (q : Seq) (s : State) : (leaveTurn q s).vrEpoch = s.vrEpoch := rfl

/-! ## setSlots -/

@[simp] theorem setSlots_en (z : Zone) (sl : ZoneSlots) (s : State) :
    (setSlots z sl s).en = s.en := by
  cases z <;> rfl
@[simp] theorem setSlots_irqStatus (z : Zone) (sl : ZoneSlots) (s : State) :
    (setSlots z sl s).irqStatus = s.irqStatus := by
  cases z <;> rfl
@[simp] theorem setSlots_irqEnable (z : Zone) (sl : ZoneSlots) (s : State) :
    (setSlots z sl s).irqEnable = s.irqEnable := by
  cases z <;> rfl
@[simp] theorem setSlots_host (z : Zone) (sl : ZoneSlots) (s : State) :
    (setSlots z sl s).host = s.host := by
  cases z <;> rfl
@[simp] theorem setSlots_cfg (z : Zone) (sl : ZoneSlots) (s : State) :
    (setSlots z sl s).cfg = s.cfg := by
  cases z <;> rfl
@[simp] theorem setSlots_cnt (z : Zone) (sl : ZoneSlots) (s : State) :
    (setSlots z sl s).cnt = s.cnt := by
  cases z <;> rfl
@[simp] theorem setSlots_snoop (z : Zone) (sl : ZoneSlots) (s : State) :
    (setSlots z sl s).snoop = s.snoop := by
  cases z <;> rfl
@[simp] theorem setSlots_vr (z : Zone) (sl : ZoneSlots) (s : State) :
    (setSlots z sl s).vr = s.vr := by
  cases z <;> rfl
@[simp] theorem setSlots_arb (z : Zone) (sl : ZoneSlots) (s : State) :
    (setSlots z sl s).arb = s.arb := by
  cases z <;> rfl
@[simp] theorem setSlots_quietMs (z : Zone) (sl : ZoneSlots) (s : State) :
    (setSlots z sl s).quietMs = s.quietMs := by
  cases z <;> rfl
@[simp] theorem setSlots_rx (z : Zone) (sl : ZoneSlots) (s : State) :
    (setSlots z sl s).rx = s.rx := by
  cases z <;> rfl
@[simp] theorem setSlots_tx (z : Zone) (sl : ZoneSlots) (s : State) :
    (setSlots z sl s).tx = s.tx := by
  cases z <;> rfl
@[simp] theorem setSlots_wq (z : Zone) (sl : ZoneSlots) (s : State) :
    (setSlots z sl s).wq = s.wq := by
  cases z <;> rfl
@[simp] theorem setSlots_run (z : Zone) (sl : ZoneSlots) (s : State) :
    (setSlots z sl s).run = s.run := by
  cases z <;> rfl
@[simp] theorem setSlots_cyc (z : Zone) (sl : ZoneSlots) (s : State) :
    (setSlots z sl s).cyc = s.cyc := by
  cases z <;> rfl
@[simp] theorem setSlots_seq (z : Zone) (sl : ZoneSlots) (s : State) :
    (setSlots z sl s).seq = s.seq := by
  cases z <;> rfl
@[simp] theorem setSlots_unit (z : Zone) (sl : ZoneSlots) (s : State) :
    (setSlots z sl s).unit = s.unit := by
  cases z <;> rfl
@[simp] theorem setSlots_step (z : Zone) (sl : ZoneSlots) (s : State) :
    (setSlots z sl s).step = s.step := by
  cases z <;> rfl
@[simp] theorem setSlots_listenMs (z : Zone) (sl : ZoneSlots) (s : State) :
    (setSlots z sl s).listenMs = s.listenMs := by
  cases z <;> rfl
@[simp] theorem setSlots_drainMs (z : Zone) (sl : ZoneSlots) (s : State) :
    (setSlots z sl s).drainMs = s.drainMs := by
  cases z <;> rfl
@[simp] theorem setSlots_pauseMs (z : Zone) (sl : ZoneSlots) (s : State) :
    (setSlots z sl s).pauseMs = s.pauseMs := by
  cases z <;> rfl
@[simp] theorem setSlots_txnMs (z : Zone) (sl : ZoneSlots) (s : State) :
    (setSlots z sl s).txnMs = s.txnMs := by
  cases z <;> rfl
@[simp] theorem setSlots_txn (z : Zone) (sl : ZoneSlots) (s : State) :
    (setSlots z sl s).txn = s.txn := by
  cases z <;> rfl
@[simp] theorem setSlots_ackExp (z : Zone) (sl : ZoneSlots) (s : State) :
    (setSlots z sl s).ackExp = s.ackExp := by
  cases z <;> rfl
@[simp] theorem setSlots_ansSeen (z : Zone) (sl : ZoneSlots) (s : State) :
    (setSlots z sl s).ansSeen = s.ansSeen := by
  cases z <;> rfl
@[simp] theorem setSlots_stopPending (z : Zone) (sl : ZoneSlots) (s : State) :
    (setSlots z sl s).stopPending = s.stopPending := by
  cases z <;> rfl
@[simp] theorem setSlots_txnDiscard (z : Zone) (sl : ZoneSlots) (s : State) :
    (setSlots z sl s).txnDiscard = s.txnDiscard := by
  cases z <;> rfl
@[simp] theorem setSlots_lastErr (z : Zone) (sl : ZoneSlots) (s : State) :
    (setSlots z sl s).lastErr = s.lastErr := by
  cases z <;> rfl
@[simp] theorem setSlots_lastAbort (z : Zone) (sl : ZoneSlots) (s : State) :
    (setSlots z sl s).lastAbort = s.lastAbort := by
  cases z <;> rfl
@[simp] theorem setSlots_script (z : Zone) (sl : ZoneSlots) (s : State) :
    (setSlots z sl s).script = s.script := by
  cases z <;> rfl
@[simp] theorem setSlots_outLog (z : Zone) (sl : ZoneSlots) (s : State) :
    (setSlots z sl s).outLog = s.outLog := by
  cases z <;> rfl
@[simp] theorem setSlots_msTicks (z : Zone) (sl : ZoneSlots) (s : State) :
    (setSlots z sl s).msTicks = s.msTicks := by
  cases z <;> rfl
@[simp] theorem setSlots_bitTicks (z : Zone) (sl : ZoneSlots) (s : State) :
    (setSlots z sl s).bitTicks = s.bitTicks := by
  cases z <;> rfl
@[simp] theorem setSlots_memEpoch (z : Zone) (sl : ZoneSlots) (s : State) :
    (setSlots z sl s).memEpoch = s.memEpoch := by
  cases z <;> rfl
@[simp] theorem setSlots_vrEpoch (z : Zone) (sl : ZoneSlots) (s : State) :
    (setSlots z sl s).vrEpoch = s.vrEpoch := by
  cases z <;> rfl
@[simp] theorem setSlots_slots0 (z : Zone) (sl : ZoneSlots) (s : State) :
    (setSlots z sl s).slots0 = if z = .z0 then sl else s.slots0 := by
  cases z <;> rfl
@[simp] theorem setSlots_slots1 (z : Zone) (sl : ZoneSlots) (s : State) :
    (setSlots z sl s).slots1 = if z = .z1 then sl else s.slots1 := by
  cases z <;> rfl
@[simp] theorem slotsOf_setSlots (z : Zone) (sl : ZoneSlots) (s : State) :
    slotsOf z (setSlots z sl s) = sl := by
  cases z <;> rfl

/-! ## putFrame -/

@[simp] theorem putFrame_en (fr : List Byte) (s : State) : (putFrame fr s).en = s.en := rfl
@[simp] theorem putFrame_irqStatus (fr : List Byte) (s : State) :
    (putFrame fr s).irqStatus = s.irqStatus := rfl
@[simp] theorem putFrame_irqEnable (fr : List Byte) (s : State) :
    (putFrame fr s).irqEnable = s.irqEnable := rfl
@[simp] theorem putFrame_host (fr : List Byte) (s : State) :
    (putFrame fr s).host = { s.host with
        hbuf := memWriteAll s.host.hbuf 0 fr, hlen := BitVec.ofNat 9 fr.length } := rfl
@[simp] theorem putFrame_cfg (fr : List Byte) (s : State) : (putFrame fr s).cfg = s.cfg := rfl
@[simp] theorem putFrame_cnt (fr : List Byte) (s : State) : (putFrame fr s).cnt = s.cnt := rfl
@[simp] theorem putFrame_snoop (fr : List Byte) (s : State) : (putFrame fr s).snoop = s.snoop := rfl
@[simp] theorem putFrame_vr (fr : List Byte) (s : State) : (putFrame fr s).vr = s.vr := rfl
@[simp] theorem putFrame_arb (fr : List Byte) (s : State) : (putFrame fr s).arb = s.arb := rfl
@[simp] theorem putFrame_quietMs (fr : List Byte) (s : State) :
    (putFrame fr s).quietMs = s.quietMs := rfl
@[simp] theorem putFrame_rx (fr : List Byte) (s : State) : (putFrame fr s).rx = s.rx := rfl
@[simp] theorem putFrame_tx (fr : List Byte) (s : State) : (putFrame fr s).tx = s.tx := rfl
@[simp] theorem putFrame_wq (fr : List Byte) (s : State) : (putFrame fr s).wq = s.wq := rfl
@[simp] theorem putFrame_slots0 (fr : List Byte) (s : State) :
    (putFrame fr s).slots0 = s.slots0 := rfl
@[simp] theorem putFrame_slots1 (fr : List Byte) (s : State) :
    (putFrame fr s).slots1 = s.slots1 := rfl
@[simp] theorem putFrame_run (fr : List Byte) (s : State) : (putFrame fr s).run = s.run := rfl
@[simp] theorem putFrame_cyc (fr : List Byte) (s : State) : (putFrame fr s).cyc = s.cyc := rfl
@[simp] theorem putFrame_seq (fr : List Byte) (s : State) : (putFrame fr s).seq = s.seq := rfl
@[simp] theorem putFrame_unit (fr : List Byte) (s : State) : (putFrame fr s).unit = s.unit := rfl
@[simp] theorem putFrame_step (fr : List Byte) (s : State) : (putFrame fr s).step = s.step := rfl
@[simp] theorem putFrame_listenMs (fr : List Byte) (s : State) :
    (putFrame fr s).listenMs = s.listenMs := rfl
@[simp] theorem putFrame_drainMs (fr : List Byte) (s : State) :
    (putFrame fr s).drainMs = s.drainMs := rfl
@[simp] theorem putFrame_pauseMs (fr : List Byte) (s : State) :
    (putFrame fr s).pauseMs = s.pauseMs := rfl
@[simp] theorem putFrame_txnMs (fr : List Byte) (s : State) : (putFrame fr s).txnMs = s.txnMs := rfl
@[simp] theorem putFrame_txn (fr : List Byte) (s : State) : (putFrame fr s).txn = s.txn := rfl
@[simp] theorem putFrame_ackExp (fr : List Byte) (s : State) :
    (putFrame fr s).ackExp = s.ackExp := rfl
@[simp] theorem putFrame_ansSeen (fr : List Byte) (s : State) :
    (putFrame fr s).ansSeen = s.ansSeen := rfl
@[simp] theorem putFrame_stopPending (fr : List Byte) (s : State) :
    (putFrame fr s).stopPending = s.stopPending := rfl
@[simp] theorem putFrame_txnDiscard (fr : List Byte) (s : State) :
    (putFrame fr s).txnDiscard = s.txnDiscard := rfl
@[simp] theorem putFrame_lastErr (fr : List Byte) (s : State) :
    (putFrame fr s).lastErr = s.lastErr := rfl
@[simp] theorem putFrame_lastAbort (fr : List Byte) (s : State) :
    (putFrame fr s).lastAbort = s.lastAbort := rfl
@[simp] theorem putFrame_script (fr : List Byte) (s : State) :
    (putFrame fr s).script = s.script := rfl
@[simp] theorem putFrame_outLog (fr : List Byte) (s : State) :
    (putFrame fr s).outLog = s.outLog := rfl
@[simp] theorem putFrame_msTicks (fr : List Byte) (s : State) :
    (putFrame fr s).msTicks = s.msTicks := rfl
@[simp] theorem putFrame_bitTicks (fr : List Byte) (s : State) :
    (putFrame fr s).bitTicks = s.bitTicks := rfl
@[simp] theorem putFrame_memEpoch (fr : List Byte) (s : State) :
    (putFrame fr s).memEpoch = s.memEpoch := rfl
@[simp] theorem putFrame_vrEpoch (fr : List Byte) (s : State) :
    (putFrame fr s).vrEpoch = s.vrEpoch := rfl

/-! ## putValues -/

@[simp] theorem putValues_en (vs : List U16) (s : State) : (putValues vs s).en = s.en := rfl
@[simp] theorem putValues_irqStatus (vs : List U16) (s : State) :
    (putValues vs s).irqStatus = s.irqStatus := rfl
@[simp] theorem putValues_irqEnable (vs : List U16) (s : State) :
    (putValues vs s).irqEnable = s.irqEnable := rfl
@[simp] theorem putValues_host (vs : List U16) (s : State) :
    (putValues vs s).host = { s.host with hval := memWriteAll s.host.hval 0 vs } := rfl
@[simp] theorem putValues_cfg (vs : List U16) (s : State) : (putValues vs s).cfg = s.cfg := rfl
@[simp] theorem putValues_cnt (vs : List U16) (s : State) : (putValues vs s).cnt = s.cnt := rfl
@[simp] theorem putValues_snoop (vs : List U16) (s : State) :
    (putValues vs s).snoop = s.snoop := rfl
@[simp] theorem putValues_vr (vs : List U16) (s : State) : (putValues vs s).vr = s.vr := rfl
@[simp] theorem putValues_arb (vs : List U16) (s : State) : (putValues vs s).arb = s.arb := rfl
@[simp] theorem putValues_quietMs (vs : List U16) (s : State) :
    (putValues vs s).quietMs = s.quietMs := rfl
@[simp] theorem putValues_rx (vs : List U16) (s : State) : (putValues vs s).rx = s.rx := rfl
@[simp] theorem putValues_tx (vs : List U16) (s : State) : (putValues vs s).tx = s.tx := rfl
@[simp] theorem putValues_wq (vs : List U16) (s : State) : (putValues vs s).wq = s.wq := rfl
@[simp] theorem putValues_slots0 (vs : List U16) (s : State) :
    (putValues vs s).slots0 = s.slots0 := rfl
@[simp] theorem putValues_slots1 (vs : List U16) (s : State) :
    (putValues vs s).slots1 = s.slots1 := rfl
@[simp] theorem putValues_run (vs : List U16) (s : State) : (putValues vs s).run = s.run := rfl
@[simp] theorem putValues_cyc (vs : List U16) (s : State) : (putValues vs s).cyc = s.cyc := rfl
@[simp] theorem putValues_seq (vs : List U16) (s : State) : (putValues vs s).seq = s.seq := rfl
@[simp] theorem putValues_unit (vs : List U16) (s : State) : (putValues vs s).unit = s.unit := rfl
@[simp] theorem putValues_step (vs : List U16) (s : State) : (putValues vs s).step = s.step := rfl
@[simp] theorem putValues_listenMs (vs : List U16) (s : State) :
    (putValues vs s).listenMs = s.listenMs := rfl
@[simp] theorem putValues_drainMs (vs : List U16) (s : State) :
    (putValues vs s).drainMs = s.drainMs := rfl
@[simp] theorem putValues_pauseMs (vs : List U16) (s : State) :
    (putValues vs s).pauseMs = s.pauseMs := rfl
@[simp] theorem putValues_txnMs (vs : List U16) (s : State) :
    (putValues vs s).txnMs = s.txnMs := rfl
@[simp] theorem putValues_txn (vs : List U16) (s : State) : (putValues vs s).txn = s.txn := rfl
@[simp] theorem putValues_ackExp (vs : List U16) (s : State) :
    (putValues vs s).ackExp = s.ackExp := rfl
@[simp] theorem putValues_ansSeen (vs : List U16) (s : State) :
    (putValues vs s).ansSeen = s.ansSeen := rfl
@[simp] theorem putValues_stopPending (vs : List U16) (s : State) :
    (putValues vs s).stopPending = s.stopPending := rfl
@[simp] theorem putValues_txnDiscard (vs : List U16) (s : State) :
    (putValues vs s).txnDiscard = s.txnDiscard := rfl
@[simp] theorem putValues_lastErr (vs : List U16) (s : State) :
    (putValues vs s).lastErr = s.lastErr := rfl
@[simp] theorem putValues_lastAbort (vs : List U16) (s : State) :
    (putValues vs s).lastAbort = s.lastAbort := rfl
@[simp] theorem putValues_script (vs : List U16) (s : State) :
    (putValues vs s).script = s.script := rfl
@[simp] theorem putValues_outLog (vs : List U16) (s : State) :
    (putValues vs s).outLog = s.outLog := rfl
@[simp] theorem putValues_msTicks (vs : List U16) (s : State) :
    (putValues vs s).msTicks = s.msTicks := rfl
@[simp] theorem putValues_bitTicks (vs : List U16) (s : State) :
    (putValues vs s).bitTicks = s.bitTicks := rfl
@[simp] theorem putValues_memEpoch (vs : List U16) (s : State) :
    (putValues vs s).memEpoch = s.memEpoch := rfl
@[simp] theorem putValues_vrEpoch (vs : List U16) (s : State) :
    (putValues vs s).vrEpoch = s.vrEpoch := rfl

/-! ## storeVr -/

@[simp] theorem storeVr_en (b : Nat) (vs : List U16) (s : State) : (storeVr b vs s).en = s.en := rfl
@[simp] theorem storeVr_irqStatus (b : Nat) (vs : List U16) (s : State) :
    (storeVr b vs s).irqStatus = s.irqStatus := rfl
@[simp] theorem storeVr_irqEnable (b : Nat) (vs : List U16) (s : State) :
    (storeVr b vs s).irqEnable = s.irqEnable := rfl
@[simp] theorem storeVr_host (b : Nat) (vs : List U16) (s : State) :
    (storeVr b vs s).host = s.host := rfl
@[simp] theorem storeVr_cfg (b : Nat) (vs : List U16) (s : State) :
    (storeVr b vs s).cfg = s.cfg := rfl
@[simp] theorem storeVr_cnt (b : Nat) (vs : List U16) (s : State) :
    (storeVr b vs s).cnt = s.cnt := rfl
@[simp] theorem storeVr_snoop (b : Nat) (vs : List U16) (s : State) :
    (storeVr b vs s).snoop = s.snoop := rfl
@[simp] theorem storeVr_vr (b : Nat) (vs : List U16) (s : State) :
    (storeVr b vs s).vr = memWriteAll s.vr b vs := rfl
@[simp] theorem storeVr_arb (b : Nat) (vs : List U16) (s : State) :
    (storeVr b vs s).arb = s.arb := rfl
@[simp] theorem storeVr_quietMs (b : Nat) (vs : List U16) (s : State) :
    (storeVr b vs s).quietMs = s.quietMs := rfl
@[simp] theorem storeVr_rx (b : Nat) (vs : List U16) (s : State) : (storeVr b vs s).rx = s.rx := rfl
@[simp] theorem storeVr_tx (b : Nat) (vs : List U16) (s : State) : (storeVr b vs s).tx = s.tx := rfl
@[simp] theorem storeVr_wq (b : Nat) (vs : List U16) (s : State) : (storeVr b vs s).wq = s.wq := rfl
@[simp] theorem storeVr_slots0 (b : Nat) (vs : List U16) (s : State) :
    (storeVr b vs s).slots0 = s.slots0 := rfl
@[simp] theorem storeVr_slots1 (b : Nat) (vs : List U16) (s : State) :
    (storeVr b vs s).slots1 = s.slots1 := rfl
@[simp] theorem storeVr_run (b : Nat) (vs : List U16) (s : State) :
    (storeVr b vs s).run = s.run := rfl
@[simp] theorem storeVr_cyc (b : Nat) (vs : List U16) (s : State) :
    (storeVr b vs s).cyc = s.cyc := rfl
@[simp] theorem storeVr_seq (b : Nat) (vs : List U16) (s : State) :
    (storeVr b vs s).seq = s.seq := rfl
@[simp] theorem storeVr_unit (b : Nat) (vs : List U16) (s : State) :
    (storeVr b vs s).unit = s.unit := rfl
@[simp] theorem storeVr_step (b : Nat) (vs : List U16) (s : State) :
    (storeVr b vs s).step = s.step := rfl
@[simp] theorem storeVr_listenMs (b : Nat) (vs : List U16) (s : State) :
    (storeVr b vs s).listenMs = s.listenMs := rfl
@[simp] theorem storeVr_drainMs (b : Nat) (vs : List U16) (s : State) :
    (storeVr b vs s).drainMs = s.drainMs := rfl
@[simp] theorem storeVr_pauseMs (b : Nat) (vs : List U16) (s : State) :
    (storeVr b vs s).pauseMs = s.pauseMs := rfl
@[simp] theorem storeVr_txnMs (b : Nat) (vs : List U16) (s : State) :
    (storeVr b vs s).txnMs = s.txnMs := rfl
@[simp] theorem storeVr_txn (b : Nat) (vs : List U16) (s : State) :
    (storeVr b vs s).txn = s.txn := rfl
@[simp] theorem storeVr_ackExp (b : Nat) (vs : List U16) (s : State) :
    (storeVr b vs s).ackExp = s.ackExp := rfl
@[simp] theorem storeVr_ansSeen (b : Nat) (vs : List U16) (s : State) :
    (storeVr b vs s).ansSeen = s.ansSeen := rfl
@[simp] theorem storeVr_stopPending (b : Nat) (vs : List U16) (s : State) :
    (storeVr b vs s).stopPending = s.stopPending := rfl
@[simp] theorem storeVr_txnDiscard (b : Nat) (vs : List U16) (s : State) :
    (storeVr b vs s).txnDiscard = s.txnDiscard := rfl
@[simp] theorem storeVr_lastErr (b : Nat) (vs : List U16) (s : State) :
    (storeVr b vs s).lastErr = s.lastErr := rfl
@[simp] theorem storeVr_lastAbort (b : Nat) (vs : List U16) (s : State) :
    (storeVr b vs s).lastAbort = s.lastAbort := rfl
@[simp] theorem storeVr_script (b : Nat) (vs : List U16) (s : State) :
    (storeVr b vs s).script = s.script := rfl
@[simp] theorem storeVr_outLog (b : Nat) (vs : List U16) (s : State) :
    (storeVr b vs s).outLog = s.outLog := rfl
@[simp] theorem storeVr_msTicks (b : Nat) (vs : List U16) (s : State) :
    (storeVr b vs s).msTicks = s.msTicks := rfl
@[simp] theorem storeVr_bitTicks (b : Nat) (vs : List U16) (s : State) :
    (storeVr b vs s).bitTicks = s.bitTicks := rfl
@[simp] theorem storeVr_memEpoch (b : Nat) (vs : List U16) (s : State) :
    (storeVr b vs s).memEpoch = s.memEpoch := rfl
@[simp] theorem storeVr_vrEpoch (b : Nat) (vs : List U16) (s : State) :
    (storeVr b vs s).vrEpoch = s.vrEpoch := rfl

end Sys2Proof.Machine
end

