-- ==== Sys2Proof/Laws/Operands.lean ====
section
/-! SUPPORT. The small lemmas of Machine/Operands.lean. -/

namespace Sys2Proof.Machine

@[simp] theorem hbufBytes_length (n : Nat) (s : State) : (hbufBytes n s).length = n := by
  simp [hbufBytes]

@[simp] theorem hvalWords_length (n : Nat) (s : State) : (hvalWords n s).length = n := by
  simp [hvalWords]

/-- Bit p of EFF_EN is partition p's effectiveness (R129). -/
theorem effEn_getLsbD (s : State) (p : Fin 8) :
    (effEn s).getLsbD p.val = (s.cfg.pt[p]).effective := by
  have bits : ∀ b0 b1 b2 b3 b4 b5 b6 b7 : Bool, ∀ p : Fin 8,
      (BitVec.ofBool b7 ++ BitVec.ofBool b6 ++ BitVec.ofBool b5 ++ BitVec.ofBool b4 ++
        BitVec.ofBool b3 ++ BitVec.ofBool b2 ++ BitVec.ofBool b1 ++
        BitVec.ofBool b0 : BitVec 8).getLsbD p.val =
      [b0, b1, b2, b3, b4, b5, b6, b7][p.val] := by decide
  unfold effEn
  rw [bits]
  match p with
  | 0 | 1 | 2 | 3 | 4 | 5 | 6 | 7 => rfl

/-- The bounds an effective partition meets (R135). -/
theorem Partition.effective_iff (p : Partition) : p.effective = true ↔
    p.en = true ∧ 1 ≤ p.count.toNat ∧ p.count.toNat ≤ 125 ∧
      p.base.toNat + p.count.toNat ≤ 512 := by
  simp [Partition.effective, and_assoc]

/-- The lowest bit found is set. -/
theorem lowestBit_getLsbD {m : BitVec 8} {p : Fin 8} (h : lowestBit m = some p) :
    m.getLsbD p.val = true := by
  simpa using List.find?_some h

end Sys2Proof.Machine
end

