-- ==== Sys2Proof/Laws/PerInstr.lean ====
section
/-! SUPPORT. Laws of the instructions as syntax, one lemma a constructor. -/

namespace Sys2Proof.Laws.FrameBounds

open Sys2Proof Sys2Proof.Machine

/-- A well-formed instruction's frame has 7 to 256 bytes (R315); a command has no frame. -/
def Statement (i : Instr) : Prop :=
  WellFormed i → ∀ f, encode i = some (.frame f) → 7 ≤ f.length ∧ f.length ≤ 256

theorem nop : Statement .nop := by simp [Statement, encode]

theorem crcInit : Statement .crcInit := by simp [Statement, encode]

theorem crcByte (b : Byte) : Statement (.crcByte b) := by simp [Statement, encode]

theorem crcBuf (l : BitVec 9) : Statement (.crcBuf l) := by simp [Statement, encode]

theorem bldRead (l : BitVec 9) : Statement (.bldRead l) := by simp [Statement, encode]

theorem bldWrite (l : BitVec 9) : Statement (.bldWrite l) := by simp [Statement, encode]

theorem bldAck (l : BitVec 9) : Statement (.bldAck l) := by simp [Statement, encode]

theorem prsReq : Statement .prsReq := by simp [Statement, encode]

theorem prsAns (l : BitVec 9) : Statement (.prsAns l) := by simp [Statement, encode]

theorem wqPush (l : BitVec 9) : Statement (.wqPush l) := by simp [Statement, encode]

theorem modeReq (z : Zone) (sub : SubField) (code : Byte) : Statement (.modeReq z sub code) := by
  simp [Statement, encode]

theorem readRequest (addr : Byte) (start count : U16) (tail : List Byte) :
    Statement (.readRequest addr start count tail) := by
  rintro h f ⟨⟩
  have h : tail.length ≤ 248 := by simpa [WellFormed, Instr.wf] using h
  simp only [readRequestFrame, framed_length, readRequestHead_length]
  omega

theorem readAnswer (addr : Byte) (vals : List U16) : Statement (.readAnswer addr vals) := by
  rintro h f ⟨⟩
  have h : 1 ≤ vals.length ∧ vals.length ≤ 125 := by simpa [WellFormed, Instr.wf] using h
  simp only [answerFrame, framed_length, List.length_append, List.length_cons, List.length_nil,
    valueBytes_length]
  omega

theorem writeRequest (addr : Byte) (start : U16) (vals : List U16) (pad : Bool) :
    Statement (.writeRequest addr start vals pad) := by
  rintro h f ⟨⟩
  have h : vals.length ≤ 123 := by simpa [WellFormed, Instr.wf] using h
  have hp : (if pad then [0x00#8] else [] : List Byte).length ≤ 1 := by cases pad <;> simp
  simp only [writeRequestFrame, framed_length, List.length_append, writeRequestHead_length,
    valueBytes_length]
  omega

theorem writeAck (addr : Byte) (start : U16) (n : Byte) : Statement (.writeAck addr start n) := by
  rintro - f ⟨⟩
  simp [ackFrame]

theorem masterReadAnalog (start count : U16) (purpose : ReadPurpose) :
    Statement (.masterReadAnalog start count purpose) := by simp [Statement, encode]

theorem masterWriteAnalog (start : U16) (vals : List U16) (purpose : WritePurpose) :
    Statement (.masterWriteAnalog start vals purpose) := by simp [Statement, encode]

end Sys2Proof.Laws.FrameBounds
end

