-- ==== Sys2Proof/Laws/Turn.lean ====
section
/-! SUPPORT. What each operation of Machine/Turn.lean can do, said once: later proofs cite these case
lemmas and do not unfold the operations. -/

namespace Sys2Proof.Machine

/-! ## Arbiter changes -/

/-- `setArb` writes `arb` and at most one interrupt flag. -/
theorem setArb_eq (a : Arb) (s : State) :
    setArb a s = { s with
      arb := a
      irqStatus := if s.arb = a then s.irqStatus else s.irqStatus ||| IrqFlag.stateChg.mask } := by
  unfold setArb
  split
  · rename_i h; subst h; rfl
  · rfl

/-- The whole effect of an aborted turn (R662). -/
theorem abortTurn_eq (reason : AbortReason) (s : State) :
    abortTurn reason s = setArb reason.target
      { s with
        seq := .off, unit := .mode0, step := 0, lastAbort := reason
        cnt.aborts := s.cnt.aborts + 1
        irqStatus := s.irqStatus ||| IrqFlag.turnAbort.mask
        txnDiscard := false, txn := none } := rfl

/-! ## The read unit -/

/-- `cycleStart` writes only the read cycle's state. -/
theorem cycleStart_cases (s : State) :
    (cycleDue s = true ∧ cycleStart s =
      { s with cyc.active := true, cyc.doneMask := 0#8, cyc.refreshReq := false }) ∨
    (cycleDue s = false ∧ cycleStart s = s) := by
  unfold cycleStart
  cases cycleDue s
  · exact .inr ⟨rfl, rfl⟩
  · exact .inl ⟨rfl, rfl⟩

/-- The state in which a read step ends the turn: no cycle, a dropped cycle, or a completed one. -/
def readIdle (s : State) : State :=
  if !s.cyc.active then s
  else if effEn s = 0#8 then { s with cyc.active := false }
  else completeCycle s

/-- A read step ends the turn, or begins the read of the lowest pending partition of an active
cycle (R681). -/
theorem readStep_cases (s : State) :
    readStep s = endTurn (readIdle (cycleStart s)) ∨
    ∃ p, (cycleStart s).cyc.active = true ∧ lowestBit (pendingParts (cycleStart s)) = some p ∧
      readStep s = beginRead ((cycleStart s).cfg.pt[p]).start
        (((cycleStart s).cfg.pt[p]).count.setWidth 16)
        (.partRead p ((cycleStart s).cfg.pt[p]).base) (cycleStart s) := by
  unfold readStep readIdle
  generalize cycleStart s = s1
  by_cases h1 : s1.cyc.active = true
  · by_cases h2 : effEn s1 = 0#8
    · left; simp [h1, h2]
    · cases h3 : lowestBit (pendingParts s1) with
      | none => left; simp [h1, h2, h3]
      | some p => right; exact ⟨p, h1, rfl, by simp [h1, h2, h3]⟩
  · left; simp [h1]

/-! ## The drain and the mode program -/

/-- A drain step begins the write of the queue's head, or goes on to the read unit (R676). -/
theorem drainNext_cases (s : State) :
    (∃ h rest, s.wq = h :: rest ∧ s.drainMs < s.cfg.tDrain.toNat ∧
      drainNext s = beginWrite h.start h.vals .drainWrite s) ∨
    ((s.wq = [] ∨ s.cfg.tDrain.toNat ≤ s.drainMs) ∧ drainNext s = readUnit s) := by
  unfold drainNext
  split
  · exact .inr ⟨.inl ‹_›, rfl⟩
  · split
    · exact .inl ⟨_, _, ‹_›, ‹_›, rfl⟩
    · exact .inr ⟨.inr (by omega), rfl⟩

/-- A unit that is reached starts a zone's mode sequence, the drain, or the read step (R651). -/
theorem advance_cases (u : TurnUnit) (s : State) :
    (∃ z, zoneReady z s = true ∧ advance u s = modeStart z s) ∨
    advance u s = drainUnit s ∨ advance u s = readUnit s := by
  unfold advance
  split
  · split
    · exact .inl ⟨_, ‹_›, rfl⟩
    · split
      · exact .inl ⟨_, ‹_›, rfl⟩
      · exact .inr (.inl rfl)
  · split
    · exact .inl ⟨_, ‹_›, rfl⟩
    · exact .inr (.inl rfl)
  · exact .inr (.inl rfl)
  · exact .inr (.inr rfl)

/-- What `modeStart` begins: the read of the zone's mode register, at step 0 of its unit (R665). -/
theorem modeStart_fields (z : Zone) (s : State) :
    (modeStart z s).unit = unitOf z ∧ (modeStart z s).step = 0 ∧ (modeStart z s).seq = .guard ∧
      (modeStart z s).run.modeReg = modeRegOf z s ∧ (modeStart z s).run.dcReg = dcRegOf z s ∧
      (modeStart z s).txn = some { addr := s.cfg.slaveAddr, start := modeRegOf z s,
                                   op := .read 1#16 .modeRead } := by
  cases z <;> exact ⟨rfl, rfl, rfl, rfl, rfl, rfl⟩

/-- A program has a step exactly at the positions 1 to its last (R667). -/
theorem program_isSome (r : ModeRun) (k : Nat) :
    (program r k).isSome = true ↔ 1 ≤ k ∧ k ≤ lastStep r := by
  unfold program lastStep
  cases r.af <;> simp only [Bool.false_eq_true, if_false, if_true]
  · unfold normalStep; split <;> simp_all; omega
  · unfold antifreezeStep; split <;> simp_all; omega

/-- A running program's next step exists unless the step was the last (R669). -/
theorem program_next (r : ModeRun) (k : Nat) (h : (program r k).isSome = true)
    (hl : k ≠ lastStep r) : (program r (k + 1)).isSome = true := by
  rw [program_isSome] at h ⊢; omega

/-- The last step of a program is a write: a pause always has a next step (R667). -/
theorem program_pause (r : ModeRun) (k : Nat) (h : program r k = some .pause) :
    k ≠ lastStep r := by
  unfold program at h
  unfold lastStep
  revert h
  cases r.af <;> simp only [Bool.false_eq_true, if_false, if_true]
  · unfold normalStep; split <;> simp
  · unfold antifreezeStep; split <;> simp

/-- A program step runs as a one-value write or as the pause (R668). -/
theorem runStep_cases (s : State) (h : (program s.run s.step).isSome = true) :
    (∃ reg v, program s.run s.step = some (.write reg v) ∧
      runStep s = beginWrite reg [v] .modeWrite s) ∨
    (program s.run s.step = some .pause ∧ runStep s = { s with seq := .pause, pauseMs := 0 }) := by
  unfold runStep
  split
  · exact .inl ⟨_, _, ‹_›, rfl⟩
  · exact .inr ⟨‹_›, rfl⟩
  · simp_all

end Sys2Proof.Machine
end

