-- ==== Sys2Proof/Tests/Slice0.lean ====
section
/-! SUPPORT. Tests of the model: the checks of WellFormed, encodings written out from 30_encoding.md,
one step of each instruction against the spec's worked examples, and for each statement with
hypotheses a state that meets them. -/

namespace Sys2Proof.Tests

-- The package is checked under a memory limit: one theorem at a time, not a thread for each.
set_option Elab.async false

open Sys2Proof Sys2Proof.Machine

/-! ## WellFormed refuses -/

theorem test_wf_read_request_too_long :
    (Instr.readRequest 0#8 0#16 1#16 (List.replicate 249 0#8)).wf = false := by decide +kernel

theorem test_wf_read_answer_empty : (Instr.readAnswer 0#8 []).wf = false := by decide

theorem test_wf_read_answer_too_long :
    (Instr.readAnswer 0#8 (List.replicate 126 0#16)).wf = false := by decide +kernel

theorem test_wf_write_request_too_long :
    (Instr.writeRequest 0#8 0#16 (List.replicate 124 0#16) false).wf = false := by decide +kernel

theorem test_wf_master_read_count_zero :
    (Instr.masterReadAnalog 0#16 0#16 (.partRead 0 0#9)).wf = false := by decide

theorem test_wf_master_read_count_126 :
    (Instr.masterReadAnalog 0#16 126#16 (.partRead 0 0#9)).wf = false := by decide

theorem test_wf_master_read_past_vr :
    (Instr.masterReadAnalog 0#16 2#16 (.partRead 0 511#9)).wf = false := by decide

theorem test_wf_mode_read_count_two :
    (Instr.masterReadAnalog 0#16 2#16 .modeRead).wf = false := by decide

theorem test_wf_master_write_empty :
    (Instr.masterWriteAnalog 0#16 [] .drainWrite).wf = false := by decide

theorem test_wf_master_write_too_long :
    (Instr.masterWriteAnalog 0#16 (List.replicate 124 0#16) .drainWrite).wf = false := by decide +kernel

theorem test_wf_mode_write_two_values :
    (Instr.masterWriteAnalog 0#16 [1#16, 2#16] .modeWrite).wf = false := by decide

/-! ## Encodings, written out from R302 and R310–R313 -/

theorem test_decode_words_plain :
    decodeCommand 0b00000000000000000000000000000000#32 = .ok .nop ∧
    decodeCommand 0b00000000000000000000000000000001#32 = .ok .crcInit ∧
    decodeCommand 0b00000000000000001010010100000010#32 = .ok (.crcByte 0xA5#8) ∧
    decodeCommand 0b00000001000000000000000000000011#32 = .ok (.crcBuf 256#9) := by decide

theorem test_decode_words_build_parse :
    decodeCommand 0b00000000011111010000000000010000#32 = .ok (.bldRead 125#9) ∧
    decodeCommand 0b00000000011110110000000000010001#32 = .ok (.bldWrite 123#9) ∧
    decodeCommand 0b00000000111111110000000000010010#32 = .ok (.bldAck 255#9) ∧
    decodeCommand 0b00000000000000000000000000100000#32 = .ok .prsReq ∧
    decodeCommand 0b00000001111111110000000000100001#32 = .ok (.prsAns 511#9) := by decide

theorem test_decode_words_request :
    decodeCommand 0b00000000000000010000000000110000#32 = .ok (.wqPush 1#9) ∧
    decodeCommand 0b00000000000000000000100000110001#32 = .ok (.modeReq .z0 .zoneMode 8#8) ∧
    decodeCommand 0b00000000000000010010010000110001#32 = .ok (.modeReq .z1 .zoneMode 36#8) ∧
    decodeCommand 0b00000000000000100100000000110001#32 = .ok (.modeReq .z0 .hotWater 0x40#8) ∧
    decodeCommand 0b00000000000000110100000000110001#32 = .ok (.modeReq .z1 .hotWater 0x40#8) := by
  decide

/-- R730's worked examples, and a set bit of L[8:2] in MODE.REQ. -/
theorem test_decode_words_illegal :
    decodeCommand 0x00000004#32 = .error (.illegalOp 0x00000004#32) ∧
    decodeCommand 0x00000100#32 = .error (.illegalOp 0x00000100#32) ∧
    decodeCommand 0x02000010#32 = .error (.illegalOp 0x02000010#32) ∧
    decodeCommand 0x00040031#32 = .error (.illegalOp 0x00040031#32) := by decide

/-- R451, R504: the block's form and the foreign form of a read request. -/
theorem test_decode_read_request :
    decodeFrame .request [0x0A#8, 0x03#8, 0x00#8, 0x00#8, 0x00#8, 0x01#8, 0x85#8, 0x71#8, 0x00#8] =
      .ok (.readRequest 0x0A#8 0#16 1#16 [0x00#8]) ∧
    decodeFrame .request [0x0A#8, 0x03#8, 0x00#8, 0x00#8, 0x00#8, 0x01#8, 0x85#8, 0x71#8] =
      .ok (.readRequest 0x0A#8 0#16 1#16 []) := by decide +kernel

/-- R458. -/
theorem test_decode_read_answer :
    decodeFrame .answer [0x0A#8, 0x03#8, 0x02#8, 0x03#8, 0x84#8, 0x1D#8, 0x16#8] =
      .ok (.readAnswer 0x0A#8 [0x0384#16]) := by decide +kernel

/-- R452, R505: with and without the pad. -/
theorem test_decode_write_request :
    decodeFrame .request [0x0A#8, 0x10#8, 0x00#8, 0x3B#8, 0x00#8, 0x01#8, 0x02#8, 0x01#8, 0xF4#8,
      0xD1#8, 0xFC#8, 0x00#8] = .ok (.writeRequest 0x0A#8 59#16 [500#16] true) ∧
    decodeFrame .request [0x0A#8, 0x10#8, 0x00#8, 0x3B#8, 0x00#8, 0x01#8, 0x02#8, 0x01#8, 0xF4#8,
      0xD1#8, 0xFC#8] = .ok (.writeRequest 0x0A#8 59#16 [500#16] false) := by decide +kernel

/-- R455, R515. -/
theorem test_decode_write_ack :
    decodeFrame .ack [0x0A#8, 0x10#8, 0x00#8, 0x3B#8, 0x00#8, 0x01#8, 0x71#8, 0x7F#8] =
      .ok (.writeAck 0x0A#8 59#16 1#8) := by decide +kernel

/-- The table's numbering: the first byte of a frame in bits 7..0. -/
theorem test_decode_table_words :
    decodeTableWord 32 0x00000102 = some (.crcByte 0x01#8) ∧
    decodeTableWord 72 0x00718501000000030A = some (.readRequest 0x0A#8 0#16 1#16 [0x00#8]) := by
  decide +kernel

/-- R506's example: from start 0xFFFF, two values belong to registers 0xFFFF and 0x0000. -/
theorem test_register_numbers_wrap :
    requestRegisters (.writeIntent 0x0A#8 0xFFFF#16 [5#16, 6#16]) =
      [(0xFFFF#16, 5#16), (0x0000#16, 6#16)] := by decide

/-! ## One step of each instruction -/

/-- The next state of an outcome, for tests. -/
def after (r : Host.Outcome State Fault Refusal) : State :=
  match r with
  | .next t => t
  | .fault _ => State.reset
  | .refused _ => State.reset

/-- Reset, with a frame in HBUF and ARG set. -/
def staged (arg : Word) (f : List Byte) : State :=
  putFrame f (writeReg .arg arg State.reset)

/-- Reset, with ARG set and HVAL[0] = 500. -/
def stagedValue : State := putValues [500#16] (writeReg .arg 0x000A003B#32 State.reset)

/-- The first `n` bytes of HBUF. -/
def hbufList (n : Nat) (s : State) : List Byte := (List.range n).map (hbufAt s)

/-- The address and the read answer of R451 and R458, and the write of R452. -/
def ansFrame : List Byte := [0x0A#8, 0x03#8, 0x02#8, 0x03#8, 0x84#8, 0x1D#8, 0x16#8]

def reqFrame : List Byte :=
  [0x0A#8, 0x10#8, 0x00#8, 0x3B#8, 0x00#8, 0x01#8, 0x02#8, 0x01#8, 0xF4#8, 0xD1#8, 0xFC#8, 0x00#8]

/-- A transaction awaits its answer, which is open. -/
def awaiting (x : Txn) (u : TurnUnit) (s : State) : State :=
  { s with
    en := true, arb := .master, seq := .wait, unit := u, txn := some x
    rx := { s.rx with inFrame := true, owner := .answer } }

theorem test_nop : cmdStatusWord (after (exec .nop State.reset)) = 0#32 := by decide

theorem test_crc_init :
    (after (exec .crcInit (writeReg .crcAcc 0x1234#32 State.reset))).host.crcAcc = 0xFFFF#16 := by
  decide

theorem test_crc_byte :
    (after (exec (.crcByte 0x01#8) State.reset)).host.crcAcc = 0x807E#16 := by decide +kernel

theorem test_crc_buf :
    (after (exec (.crcBuf 6#9) (staged 0#32 [0x0A#8, 0x03#8, 0#8, 0#8, 0#8, 1#8]))).host.crcAcc =
      0x7185#16 := by decide +kernel

theorem test_crc_buf_range :
    cmdStatusWord (after (exec (.crcBuf 257#9) State.reset)) = 2#32 := by decide

theorem test_bld_read :
    hbufList 9 (after (exec (.bldRead 1#9) (writeReg .arg 0x000A0000#32 State.reset))) =
      [0x0A#8, 0x03#8, 0x00#8, 0x00#8, 0x00#8, 0x01#8, 0x85#8, 0x71#8, 0x00#8] := by decide +kernel

theorem test_bld_read_range :
    cmdStatusWord (after (exec (.bldRead 126#9) State.reset)) = 2#32 := by decide

theorem test_bld_write :
    hbufList 12 (after (exec (.bldWrite 1#9) stagedValue)) = reqFrame ∧
    (after (exec (.bldWrite 1#9) stagedValue)).host.hlen = 12#9 := by decide +kernel

theorem test_bld_ack :
    hbufList 8 (after (exec (.bldAck 1#9) stagedValue)) =
      [0x0A#8, 0x10#8, 0x00#8, 0x3B#8, 0x00#8, 0x01#8, 0x71#8, 0x7F#8] := by decide +kernel

theorem test_prs_req :
    let t := after (exec .prsReq (staged 0#32 reqFrame))
    cmdStatusWord t = 0#32 ∧ t.host.pres.word0 = 0x00100A02#32 ∧
      t.host.pres.word1 = 0x0001003B#32 ∧ hvalAt t 0 = 500#16 := by decide +kernel

theorem test_prs_ans :
    let t := after (exec (.prsAns 1#9) (staged 0x030A0000#32 ansFrame))
    cmdStatusWord t = 0#32 ∧ t.host.pres.word0 = 0x00030A03#32 ∧
      t.host.pres.word1 = 0x00010000#32 ∧ hvalAt t 0 = 0x0384#16 := by decide +kernel

theorem test_prs_ans_wrong_count :
    cmdStatusWord (after (exec (.prsAns 2#9) (staged 0x030A0000#32 ansFrame))) = 0x40#32 := by
  decide +kernel

theorem test_wq_push :
    let t := after (exec (.wqPush 1#9) stagedValue)
    wqStatusWord t = 1#32 ∧ t.wq = [{ start := 59#16, vals := [500#16] }] := by decide +kernel

/-- Reset, with eight entries queued. -/
def fullQueue : State :=
  { State.reset with wq := List.replicate 8 { start := 0#16, vals := [0#16] } }

/-- R812: on a full queue a count of 0 is BAD_RANGE, a count of 1 WQ_FULL. -/
theorem test_wq_push_full :
    cmdStatusWord (after (exec (.wqPush 0#9) fullQueue)) = 2#32 ∧
    cmdStatusWord (after (exec (.wqPush 1#9) fullQueue)) = 3#32 := by decide +kernel

theorem test_mode_req :
    let t := after (exec (.modeReq .z1 .hotWater 0x40#8) State.reset)
    modeStatusWord t = 8#32 ∧ modeSlotsWord t = 0x40000000#32 := by decide

/-- R504: an observed read request, in the layout of R113. -/
theorem test_read_request_observed :
    let t := after (exec (.readRequest 0x0A#8 0#16 1#16 []) State.reset)
    t.snoop.res.word0 = 0x00030A01#32 ∧ t.snoop.res.word1 = 0x00010000#32 ∧
      snoopLenWord t = 8#32 ∧ t.irqStatus = 8#9 := by decide +kernel

/-- R621: a foreign read request in the answer window of a one-register read fails FE_BCOUNT. -/
theorem test_read_request_as_answer :
    (after (exec (.readRequest 0x0A#8 0#16 1#16 [])
      (awaiting { addr := 0x0A#8, start := 0#16, op := .read 1#16 (.partRead 0 0#9) } .read
        State.reset))).lastErr = .feBcount := by decide +kernel

theorem test_write_request_observed :
    let t := after (exec (.writeRequest 0x0A#8 59#16 [500#16] true) State.reset)
    t.snoop.res.word0 = 0x00100A02#32 ∧ t.snoop.res.word1 = 0x0001003B#32 ∧
      snoopLenWord t = 12#32 := by decide +kernel

/-- R681's worked example: the only partition is read, the cycle completes. -/
def onePartition : State :=
  { State.reset with
    cyc := { ReadCycle.reset with active := true }
    cfg := { Settings.reset with
      pt := (Vector.replicate 8 Partition.reset).set 0
        { start := 0#16, count := 2#7, base := 0#9, en := true } } }

theorem test_read_answer_partition :
    let t := after (exec (.readAnswer 0x0A#8 [0x0384#16, 0xFFFF#16])
      (awaiting { addr := 0x0A#8, start := 0#16, op := .read 2#16 (.partRead 0 0#9) } .read
        onePartition))
    vrWord 0 t = 0x00010384#32 ∧ vrWord 1 t = 0x0001FFFF#32 ∧ t.irqStatus = 1#9 ∧
      t.seq = .listen := by decide +kernel

/-- An answer from another address fails FE_ADDR (R610). -/
theorem test_read_answer_wrong_address :
    let t := after (exec (.readAnswer 0x0B#8 [0x0384#16, 0xFFFF#16])
      (awaiting { addr := 0x0A#8, start := 0#16, op := .read 2#16 (.partRead 0 0#9) } .read
        onePartition))
    t.lastErr = .feAddr ∧ t.vr = [] ∧ t.irqStatus = 2#9 := by decide +kernel

/-- A queue of one entry whose write awaits its ack. -/
def draining : State :=
  awaiting { addr := 0x0A#8, start := 59#16, op := .write [500#16] .drainWrite } .drain
    { State.reset with
      wq := [{ start := 59#16, vals := [500#16] }]
      ackExp := [0x0A#8, 0x10#8, 0x00#8, 0x3B#8, 0x00#8, 0x01#8, 0x71#8, 0x7F#8] }

theorem test_write_ack_drain :
    let t := after (exec (.writeAck 0x0A#8 59#16 1#8) draining)
    t.wq = [] ∧ t.irqStatus = 0x80#9 ∧ t.cyc.refreshReq = true ∧ t.lastErr = .ok := by
  decide +kernel

/-- R515: an ack with its own valid CRC for another count does not match; the head stays. -/
theorem test_write_ack_mismatch :
    let t := after (exec (.writeAck 0x0A#8 59#16 2#8) draining)
    t.wq.length = 1 ∧ t.lastErr = .ackMismatch ∧ t.irqStatus = 2#9 := by decide +kernel

theorem test_master_read :
    let t := after (exec (.masterReadAnalog 0#16 1#16 (.partRead 0 0#9)) State.reset)
    t.tx.buf = [0x0A#8, 0x03#8, 0x00#8, 0x00#8, 0x00#8, 0x01#8, 0x85#8, 0x71#8, 0x00#8] ∧
      t.seq = .guard := by decide +kernel

theorem test_master_write :
    let t := after (exec (.masterWriteAnalog 59#16 [500#16] .drainWrite) State.reset)
    t.tx.buf = reqFrame ∧
      t.ackExp = [0x0A#8, 0x10#8, 0x00#8, 0x3B#8, 0x00#8, 0x01#8, 0x71#8, 0x7F#8] := by
  decide +kernel

/-! ## Host programs (R320, R321) -/

/-- R321's expansion of `part 0, start=0, count=2, base=0`; the offsets are R210's. -/
theorem test_part_expansion :
    assemble [.part 0 0#16 2#7 0#9] =
      some [.write 0x100#14 0x00020000#32, .write 0x104#14 0x80000000#32] := by decide

/-- R722's `mode.req 1, 1, 0x40` is word 0x00034031; a count of 512 is an assembly error (R320). -/
theorem test_command_lines :
    (CommandLine.modeReq 1 1 0x40).word = some 0x00034031#32 ∧
      (CommandLine.bldRead 512).word = none := by decide

/-- `zone` keeps the enable bit that an earlier line set (R321). -/
theorem test_zone_tracks_mode_en :
    assemble [.zone .z0 0x20#16 0x10#16, .zone .z1 0x21#16 0x11#16] =
      some [.write 0x044#14 0x00100020#32, .write 0x04C#14 1#32,
        .write 0x048#14 0x00110021#32, .write 0x04C#14 3#32] := by decide

/-- A write to a byte offset inside MODE_EN is one to MODE_EN (R205), and `zone` keeps its bit. -/
theorem test_zone_after_raw_offset :
    assemble [.wr (.raw 0x04F#14) 1#32, .zone .z1 0x21#16 0x11#16] =
      some [.write 0x04F#14 1#32, .write 0x048#14 0x00110021#32, .write 0x04C#14 3#32] := by decide

/-- `poll IRQ_STATUS, 0x1, 0x1` with `irq` in IRQ_STATUS: what is left, and what two accesses read. -/
def polled (irq : BitVec 9) : List Access × List Output :=
  match HostRun.run [.host, .host]
    { todo := [.poll 0x010#14 1#32 1#32], block := { State.reset with irqStatus := irq } } with
  | .next h => (h.todo, h.block.outLog)
  | .fault _ => ([], [])
  | .refused _ => ([], [])

/-- A poll reads again while the masked word is not the value, and stops at the first that is. -/
theorem test_poll :
    polled 2#9 = ([.poll 0x010#14 1#32 1#32], [.busData 2#32, .busData 2#32]) ∧
      polled 3#9 = ([], [.busData 3#32]) := by decide +kernel

/-! ## States and operands that meet the hypotheses of the statements

One theorem a statement with hypotheses; where its clauses divide the range of an input, values at
the ends of each clause. -/

/-- Reset, waiting in `q` with the arbiter in MASTER. -/
def waitingIn (q : Seq) : State := { State.reset with en := true, arb := .master, seq := q }

/-- The ends of the ranges R210 lists as unmapped, and the words beside them. -/
theorem witness_UnmappedAndUnalignedAccesses :
    ([0x098, 0x0FC, 0x140, 0x3FC, 0xA00, 0xBFC, 0x1800, 0x3FFC].all fun w =>
      unmapped (wordAddress (BitVec.ofNat 14 w))) = true ∧
    ([0x094, 0x100, 0x13C, 0x400, 0x9FC, 0xC00, 0x17FC].all fun w =>
      !unmapped (wordAddress (BitVec.ofNat 14 w))) = true := by decide

theorem witness_AddressMapAsTabled :
    hostReg 0x7FC#14 = some (.hbuf 255) ∧ hostReg 0x9FC#14 = some (.hval 127) ∧
    hostReg 0xFFC#14 = some (.snoopBuf 255) ∧ hostReg 0x17FC#14 = some (.vr 511) := by decide

theorem witness_AccessTypesOfRegisters :
    (hostReg 0x00C#14 = some .status ∧ HostReg.status.readOnly = true) ∧
    (hostReg 0x028#14 = some .hlen ∧ readBack .hlen 256#32 = some 256#32 ∧
      readBack .hlen 257#32 = some 256#32) ∧
    (hostReg 0x068#14 = some .cyclePeriod ∧ readBack .cyclePeriod 9#32 = some 10#32 ∧
      readBack .cyclePeriod 10#32 = some 10#32) ∧
    readBack .tGap 0#32 = some 1#32 ∧ readBack .tGap 0x100#32 = some 1#32 ∧
    (hostReg 0xFFC#14 = some (.snoopBuf 255) ∧ hostReg 0x1000#14 = some (.vr 0) ∧
      hostReg 0x7FC#14 = some (.hbuf 255) ∧ hostReg 0x800#14 = some (.hval 0) ∧
      hostReg 0x138#14 = some (.ptRange 7)) ∧
    (waitingIn .guard).seq = .guard ∧ (waitingIn .wait).seq = .wait ∧ State.reset.seq = .off ∧
    (State.reset.lastErr = .ok ∧ State.reset.host.ferr = .ok ∧ State.reset.snoop.ferr = .ok) ∧
    (State.reset.wq = [] ∧ (fullQueue.wq).length = 8) := by decide

/-- The fields of STATUS, written out from R104, in a state that sets most of them. -/
theorem test_status_fields :
    statusWord { waitingIn .pause with
      unit := .mode1, step := 4, lastErr := .teTimeout, lastAbort := .stop
      cyc := { ReadCycle.reset with active := true, refreshReq := true, valid := true } } =
      0b00000001000101010010101010110110#32 := by decide

/-- WQ_STATUS of a full queue: COUNT = 8, FULL (R114). -/
theorem test_wq_status_full : wqStatusWord fullQueue = 0x00000108#32 := by decide

theorem witness_HostWritesStayInPlace :
    (hostReg 0x100#14 = some (.ptRange 0) ∧ (HostReg.ptRange 0).isSetting = true ∧
      HostReg.slaveAddr.isSetting = true ∧ HostReg.slaveAddr ≠ .ptRange 0 ∧
      (HostReg.ptBase 0).isSetting = true ∧ HostReg.ptBase 0 ≠ .ptRange 0) ∧
    (hostReg 0x014#14 = some .irqEnable ∧ HostReg.irqEnable.isSetting = true ∧
      hostReg 0x024#14 = some .arg ∧ hostReg 0x028#14 = some .hlen ∧
      hostReg 0x02C#14 = some .crcAcc) ∧
    hostReg 0x400#14 = some (.hbuf 0) ∧ hostReg 0x800#14 = some (.hval 0) := by decide

theorem witness_PartitionEffectiveWhenLegal :
    (∀ c ∈ [1#7, 125#7],
      ({ start := 0#16, count := c, base := 387#9, en := true } : Partition).effective = true) ∧
    (∀ c ∈ [0#7, 126#7],
      ({ start := 0#16, count := c, base := 0#9, en := true } : Partition).effective = false) ∧
    ({ start := 0#16, count := 125#7, base := 388#9, en := true } : Partition).effective = false ∧
    hostReg 0x100#14 = some (.ptRange 0) ∧ hostReg 0x13C#14 = some (.ptBase 7) ∧
    (1 : Fin 8) ≠ 0 := by decide

/-- EN set, set again and kept clear; and REFRESH alone with EN at either value. -/
theorem witness_CtrlActionsInOrder :
    ((1#32).extractLsb' 1 3 = 0#3 ∧ (1#32).getLsbD 0 = true) ∧
    ((0#32).extractLsb' 1 3 = 0#3 ∧ (0#32).getLsbD 0 = State.reset.en) ∧
    (8#32).extractLsb' 0 4 = (if State.reset.en then 9#4 else 8#4) ∧
    (9#32).extractLsb' 0 4 =
      (if ({ State.reset with en := true } : State).en then 9#4 else 8#4) := by decide

theorem witness_InvalidateClearsValues :
    (4#32).extractLsb' 0 4 = (if State.reset.en then 5#4 else 4#4) ∧
    (5#32).extractLsb' 0 4 =
      (if ({ State.reset with en := true } : State).en then 5#4 else 4#4) := by decide

theorem witness_CrcDetectsSingleBit : 0 < [0x00#8].length ∧ 7 < 8 := by decide

theorem witness_BuiltFrameShapes :
    (1 ≤ [0#16].length ∧ [0#16].length ≤ 123) ∧
    (1 ≤ (List.replicate 123 0#16).length ∧ (List.replicate 123 0#16).length ≤ 123) ∧
    (List.replicate 255 0#16).length < 256 := by decide +kernel

theorem witness_DecodeOfEncodeIsIdentity :
    (WellFormed (.modeReq .z1 .hotWater 0x40#8) ∧
      encode (.modeReq .z1 .hotWater 0x40#8) = some (.word 0x00034031#32)) ∧
    (WellFormed (.readAnswer 0x0A#8 [0x0384#16]) ∧
      encode (.readAnswer 0x0A#8 [0x0384#16]) = some (.frame ansFrame) ∧
      frameRole (.readAnswer 0x0A#8 [0x0384#16]) = some .answer) := by decide +kernel

theorem witness_EncodeOfDecodeIsIdentity :
    decode .request (.frame reqFrame) = .ok (.writeRequest 0x0A#8 59#16 [500#16] true) ∧
    decode .ack (.word 0#32) = .ok .nop := by decide +kernel

theorem witness_IllegalWordsOnlyReport :
    illegalWord 0x00000004#32 = true ∧ illegalWord 0x02000010#32 = true ∧
    illegalWord 0x00000100#32 = true ∧ illegalWord 0x00000102#32 = false := by decide

theorem witness_ParseAnswerImpossibleCounts :
    parseAnswer 7 ansFrame 0x0A#8 0x03#8 1 = .ok [0x0384#16] ∧
    parseAnswer 5 [0x0A#8, 0x03#8, 0#8, 0#8, 0#8] 0x0A#8 0x03#8 0 = .error .feLen ∧
    parseAnswer 7 ansFrame 0x0A#8 0x03#8 0 = .error .feBcount ∧
    parseAnswer 256 [0x0A#8, 0x03#8, 0#8] 0x0A#8 0x03#8 0 = .error .feTotlen ∧
    parseAnswer 7 ansFrame 0x0A#8 0x03#8 126 = .error .feBcount ∧
    parseAnswer 257 [0x0A#8, 0x03#8, 252#8] 0x0A#8 0x03#8 126 = .error .feLen ∧
    parseAnswer 256 [0x0A#8, 0x03#8, 254#8] 0x0A#8 0x03#8 127 = .error .feTotlen ∧
    parseAnswer 7 ansFrame 0x0A#8 0x03#8 128 = .error .feBcount ∧
    parseAnswer 256 ansFrame 0x0A#8 0x03#8 511 = .error .feBcount := by decide +kernel

/-- One flip at each end of each clause of the table, on its worked-example frames. -/
theorem witness_SingleBitErrorsRejected :
    (0 < 9 ∧ 8 < 9 ∧ 0 < 8 ∧ 7 < 8) ∧
    (1 ≤ [500#16].length ∧ [500#16].length ≤ 123 ∧ 11 < 10 + 2 * [500#16].length) ∧
    (1 ≤ [0x0384#16].length ∧ [0x0384#16].length ≤ 125 ∧ 6 < 5 + 2 * [0x0384#16].length) ∧
    parseSlaveRequest 9 (flipBit (buildReadRequest 0x0A#8 0#16 1#16) 8 7) =
      .ok (.readIntent 0x0A#8 0#16 1#16) ∧
    parseSlaveRequest 9 (flipBit (buildReadRequest 0x0A#8 0#16 1#16) 7 7) = .error .feCrc ∧
    parseSlaveRequest 12 (flipBit reqFrame 11 0) = .error .feTotlen ∧
    parseSlaveRequest 12 (flipBit reqFrame 6 7) = .error .piBcount ∧
    parseAnswer 7 (flipBit ansFrame 2 7) 0x0A#8 0x03#8 1 = .error .feBcount := by decide +kernel

theorem witness_BuildCommandsResult :
    (∀ l ∈ [1#9, 125#9], 1 ≤ l.toNat ∧ l.toNat ≤ 125) ∧
    (∀ l ∈ [0#9, 126#9], ¬(1 ≤ l.toNat ∧ l.toNat ≤ 125)) ∧
    (∀ l ∈ [1#9, 123#9], 1 ≤ l.toNat ∧ l.toNat ≤ 123) ∧
    (∀ l ∈ [0#9, 124#9], ¬(1 ≤ l.toNat ∧ l.toNat ≤ 123)) ∧
    (255#9).toNat ≤ 255 ∧ 255 < (256#9).toNat := by decide

theorem witness_CommandsLeaveSequencerAlone :
    isCommand .nop = true ∧ isCommand (.wqPush 0#9) = true := by decide

theorem witness_CommandErrorsByCause :
    wordError 0x00000004#32 0 = .illegalOp ∧ wordError 0x01010003#32 0 = .badRange ∧
    wordError 0x01000003#32 0 = .ok ∧ wordError 0x00000030#32 8 = .badRange ∧
    wordError 0x00010030#32 8 = .wqFull ∧ wordError 0x007B0030#32 7 = .ok := by decide

/-- Reset, sending: driver on, in TX, with `n` bit times left of a two-byte request. -/
def sending (n : Nat) : State :=
  { State.reset with seq := .tx, tx := { de := true, buf := [0x0A#8, 0x03#8], bits := n } }

theorem witness_ReceivedCharacterEffects :
    (sending 1).tx.de = true ∧
    State.reset.tx.de = false ∧ State.reset.seq ≠ .guard ∧ State.reset.seq ≠ .pause := by decide

theorem witness_ActivityAbortsTurn :
    (waitingIn .guard).tx.de = false ∧ (waitingIn .guard).seq = .guard ∧
    (waitingIn .pause).tx.de = false ∧ (waitingIn .pause).seq = .pause := by decide

/-- Reset, with the answer of R458 received as an observed frame and `g` bit times of silence. -/
def opened (g : Nat) : State :=
  { State.reset with
    rx := { Receiver.reset with inFrame := true, len := 7, gap := g, buf := ansFrame } }

/-- The gap counts to 34 of 35, and to 35. -/
theorem witness_FrameEndsAfterGap :
    (State.reset.seq ≠ .tx ∧ State.reset.rx.inFrame = false) ∧
    ((opened 33).seq ≠ .tx ∧ (opened 33).rx.inFrame = true ∧ (opened 33).rx.active = false ∧
      min ((opened 33).rx.gap + 1) 255 < (opened 33).cfg.tGap.toNat) ∧
    ((opened 34).seq ≠ .tx ∧ (opened 34).rx.inFrame = true ∧ (opened 34).rx.active = false ∧
      (opened 34).cfg.tGap.toNat ≤ min ((opened 34).rx.gap + 1) 255 ∧
      (opened 34).rx.buf.length = min (opened 34).rx.len 256) := by decide

theorem witness_SnoopRecordsFrame :
    (∀ n ∈ [0, 256], n ≤ 511 ∧ (List.replicate n 0#8).length = min n 256) ∧
    (∀ n ∈ [257, 511], n ≤ 511 ∧ (List.replicate 256 0#8).length = min n 256) ∧
    State.reset.rx.owner = .snoop := by decide +kernel

theorem witness_ObservedRequestsComplete :
    (WellFormed (.writeRequest 0x0A#8 59#16 [500#16] true) ∧
      encode (.writeRequest 0x0A#8 59#16 [500#16] true) = some (.frame reqFrame) ∧
      frameRole (.writeRequest 0x0A#8 59#16 [500#16] true) = some .request) ∧
    (WellFormed (.readRequest 0x0A#8 0#16 1#16 []) ∧
      frameRole (.readRequest 0x0A#8 0#16 1#16 []) = some .request) ∧
    State.reset.rx.owner = .snoop ∧
    ({ State.reset with rx.owner := .discard } : State).rx.owner = .discard := by decide +kernel

theorem witness_TransmitterSendsBackToBack :
    (∀ n ∈ [1, 11, 20], (sending n).seq = .tx ∧ (sending n).rx.inFrame = false ∧
      1 ≤ (sending n).tx.bits) ∧
    State.reset.tx.de = false ∧
    (∀ k, k < 2 → ∀ j, j < 10 → (sending (20 - (10 * k + j))).tx.de = true ∧
      k < (sending (20 - (10 * k + j))).tx.buf.length ∧
      (sending (20 - (10 * k + j))).tx.bits = 10 * 2 - (10 * k + j)) := by decide

/-- In SLAVE with `q` milliseconds of silence. -/
def silent (q : Nat) : State := { State.reset with en := true, arb := .slave, quietMs := q }

/-- The count reaches 5000, which is not above T_QUIET_MS, and 5001, which is. -/
theorem witness_MasterOnlyAfterQuiescence :
    ((silent 4999).seq = .off ∧ (silent 4999).arb ≠ .master ∧
      ¬(silent 4999).cfg.tQuiet.toNat < min ((silent 4999).quietMs + 1) 4294967295) ∧
    ((silent 5000).seq = .off ∧ (silent 5000).arb ≠ .master ∧ (silent 5000).en = true ∧
      (silent 5000).arb = .slave ∧
      (silent 5000).cfg.tQuiet.toNat < min ((silent 5000).quietMs + 1) 4294967295 ∧
      (silent 5000).rx.active = false ∧ (silent 5000).rx.inFrame = false) := by decide

theorem witness_GuardSendsOnQuietLine :
    (∀ q ∈ [99, 100], ({ waitingIn .guard with quietMs := q } : State).seq = .guard ∧
      100 ≤ min (q + 1) 4294967295) ∧
    (waitingIn .guard).seq = .guard ∧
    ¬(waitingIn .guard).cfg.tIdle.toNat ≤ min ((waitingIn .guard).quietMs + 1) 4294967295 := by
  decide

theorem witness_AnswerTimesOut :
    (∀ n ∈ [0, 2498], ({ waitingIn .wait with txnMs := n } : State).seq = .wait ∧
      min (n + 1) 4294967295 < (waitingIn .wait).cfg.tTxn.toNat) ∧
    (waitingIn .wait).cfg.tTxn.toNat ≤ min (2499 + 1) 4294967295 := by decide

theorem witness_ListenAndPauseWindows :
    (waitingIn .listen).seq = .listen ∧
    ((waitingIn .pause).seq = .pause ∧ (waitingIn .pause).unit ≠ .drain) := by decide

/-! ### Transactions that end -/

/-- The read of one partition of two registers awaits its answer. -/
def partTxn : Txn := { addr := 0x0A#8, start := 0#16, op := .read 2#16 (.partRead 0 0#9) }

/-- The read of a mode register awaits its answer. -/
def modeTxn : Txn := { addr := 0x0A#8, start := 0#16, op := .read 1#16 .modeRead }

/-- A normal mode sequence of zone 0 whose step `k` awaits its ack. -/
def modeWriting (k : Nat) : State :=
  awaiting { addr := 0x0A#8, start := 59#16, op := .write [1#16] .modeWrite } .mode0
    { State.reset with step := k, ackExp := ackFrame 0x0A#8 59#16 1#8 }

theorem witness_PartitionReadAnswered :
    let s := awaiting partTxn .read onePartition
    1 ≤ [0x0384#16, 0xFFFF#16].length ∧ [0x0384#16, 0xFFFF#16].length ≤ 125 ∧
    s.rx.owner = .answer ∧ s.rx.ferr = false ∧ s.stopPending = none ∧
    s.txn = some { addr := 0x0A#8, start := 0#16
                   op := .read (BitVec.ofNat 16 2) (.partRead 0 0#9) } ∧
    s.txnDiscard = false ∧ ({ s with txnDiscard := true } : State).txnDiscard = true ∧
    effEn s &&& ~~~(s.cyc.doneMask ||| (1#8 <<< 0)) = 0#8 ∧
    effEn s &&& ~~~(s.cyc.doneMask ||| (1#8 <<< 1)) ≠ 0#8 := by decide

theorem witness_ModeReadAnswered :
    let s := awaiting modeTxn .mode0 State.reset
    s.rx.owner = .answer ∧ s.rx.ferr = false ∧ s.stopPending = none ∧
    s.txn = some { addr := 0x0A#8, start := 0#16, op := .read 1#16 .modeRead } := by decide

/-- The last entry, and an entry with another behind it. -/
theorem witness_DrainWriteAcknowledged :
    (draining.rx.owner = .answer ∧ draining.rx.ferr = false ∧ draining.stopPending = none ∧
      draining.txn = some { addr := 0x0A#8, start := 59#16, op := .write [500#16] .drainWrite } ∧
      draining.ackExp = ackFrame 0x0A#8 59#16 (BitVec.ofNat 8 [500#16].length)) ∧
    draining.wq.tail = [] ∧ draining.drainMs < draining.cfg.tDrain.toNat ∧
    (∃ h rest, ({ draining with wq := draining.wq ++ draining.wq } : State).wq.tail =
      h :: rest) ∧
    ({ draining with drainMs := 2000 } : State).cfg.tDrain.toNat ≤ 2000 := by
  refine ⟨by decide +kernel, by decide, by decide, ⟨_, _, rfl⟩, by decide⟩

/-- Steps 1 (then a write), 3 (then the pause) and 6 (the last) of the normal program. -/
theorem witness_ModeWriteAcknowledged :
    (∀ k ∈ [1, 3, 6], (modeWriting k).rx.owner = .answer ∧ (modeWriting k).rx.ferr = false ∧
      (modeWriting k).stopPending = none ∧
      (modeWriting k).txn = some { addr := 0x0A#8, start := 59#16
                                   op := .write [1#16] .modeWrite } ∧
      (modeWriting k).ackExp = ackFrame 0x0A#8 59#16 1#8) ∧
    (1 ≠ lastStep (modeWriting 1).run ∧
      program (modeWriting 1).run (1 + 1) = some (.write 0#16 1#16)) ∧
    (3 ≠ lastStep (modeWriting 3).run ∧ program (modeWriting 3).run (3 + 1) = some .pause) ∧
    (6 = lastStep (modeWriting 6).run ∧ (modeWriting 6).unit = unitOf .z0 ∧
      (modeWriting 6).unit = .mode0 ∧ ({ modeWriting 6 with unit := .mode1 } : State).unit = .mode1) := by
  decide +kernel

theorem witness_FailedTransactionKeepsWork :
    let s := awaiting partTxn .read onePartition
    (s.txn = some partTxn ∧ Ferr.teTimeout ≠ .ok ∧ s.stopPending = none ∧
      partTxn.op = .read 2#16 (.partRead 0 0#9)) ∧
    (draining.txn = some { addr := 0x0A#8, start := 59#16, op := .write [500#16] .drainWrite } ∧
      draining.stopPending = none) ∧
    ((modeWriting 1).txn = some { addr := 0x0A#8, start := 59#16, op := .write [1#16] .modeWrite } ∧
      (modeWriting 1).stopPending = none ∧ (modeWriting 1).unit = unitOf .z0) ∧
    ((awaiting modeTxn .mode1 State.reset).txn = some modeTxn ∧
      modeTxn.op = .read 1#16 .modeRead ∧
      (awaiting modeTxn .mode1 State.reset).unit = unitOf .z1) ∧
    (s.rx.owner = .answer ∧ s.rx.ferr = false) ∧ draining.rx.owner = .answer ∧
    (8 = 8 ∧ [0x0A#8, 0x10#8, 0x00#8, 0x3B#8, 0x00#8, 0x01#8, 0x71#8, 0x7F#8].take 8 =
      draining.ackExp.take 8) := by decide

/-- R621's example on the wire: a foreign read request in the window of a write. -/
theorem test_foreign_request_as_ack :
    (deliverFrame 8 [0x0A#8, 0x03#8, 0x00#8, 0x00#8, 0x00#8, 0x01#8, 0x85#8, 0x71#8] draining).lastErr =
      .ackMismatch := by decide +kernel

theorem witness_PendingStopFollowsResult :
    let s := { awaiting partTxn .read onePartition with stopPending := some .stop }
    (s.txn = some partTxn ∧ s.stopPending = some .stop ∧ s.seq = .wait ∧
      partTxn.op = .read 2#16 (.partRead 0 0#9) ∧ s.txnDiscard = false) ∧
    let d := { draining with stopPending := some StopReason.reinit }
    d.txn = some { addr := 0x0A#8, start := 59#16, op := .write [500#16] .drainWrite } ∧
    d.stopPending = some .reinit ∧ d.seq = .wait ∧
    let m := { modeWriting 6 with stopPending := some StopReason.stop }
    m.txn = some { addr := 0x0A#8, start := 59#16, op := .write [1#16] .modeWrite } ∧
    m.stopPending = some .stop ∧ m.seq = .wait ∧ m.step = lastStep m.run ∧ m.unit = .mode0 ∧
    ({ m with unit := .mode1 } : State).unit = .mode1 ∧
    ({ m with step := 1 } : State).step ≠ lastStep m.run ∧
    let q := { awaiting modeTxn .mode0 State.reset with stopPending := some StopReason.stop }
    q.txn = some modeTxn ∧ q.stopPending = some .stop ∧ q.seq = .wait ∧
    modeTxn.op = .read 1#16 .modeRead ∧
    ({ s with txnDiscard := true } : State).txnDiscard = true ∧
    effEn s &&& ~~~(s.cyc.doneMask ||| (1#8 <<< 0)) = 0#8 ∧
    effEn s &&& ~~~(s.cyc.doneMask ||| (1#8 <<< 1)) ≠ 0#8 := by decide

/-- REINIT that waited for a timed-out answer discards the frame still open (R577, R606, R607). -/
theorem test_reinit_after_timeout :
    let t := after (handle exec .tickMs
      { draining with stopPending := some .reinit, txnMs := 2499, quietMs := 7 })
    t.arb = .init ∧ t.rx.owner = .discard ∧ t.quietMs = 0 ∧ t.wq.length = 1 ∧
      t.cnt.txnFail = 1#32 := by decide +kernel

/-! ### Turns -/

/-- Reset, with a request pending for each of the zones in `l` and both zones enabled. -/
def requested (z0 z1 : Bool) : State :=
  { State.reset with
    cfg := { Settings.reset with modeEn0 := true, modeEn1 := true }
    slots0 := { ZoneSlots.reset with zone := { pend := z0, code := 8#8, dirty := true } }
    slots1 := { ZoneSlots.reset with zone := { pend := z1, code := 8#8, dirty := true } } }

/-- Each zone ready, none ready with an entry queued and a budget, or none, and nothing to do. -/
theorem witness_TurnRunsUnitsInOrder :
    zoneReady .z0 (requested true true) = true ∧
    (zoneReady .z0 (requested false true) = false ∧ zoneReady .z1 (requested false true) = true) ∧
    (zoneReady .z0 draining = false ∧ zoneReady .z1 draining = false ∧
      draining.wq = { start := 59#16, vals := [500#16] } :: [] ∧ 0 < draining.cfg.tDrain.toNat ∧
      ({ Settings.reset with tDrain := 0#16 } : Settings).tDrain.toNat = 0) ∧
    (zoneReady .z0 State.reset = false ∧ zoneReady .z1 State.reset = false ∧ State.reset.wq = [] ∧
      effEn State.reset = 0#8 ∧ State.reset.cyc.active = false) := by decide

/-- With an entry queued and T_DRAIN_MS = 0 a turn goes to its read step, here at once to its end
(R651, R676). -/
theorem test_turn_without_drain_budget :
    let s := turnStart { draining with cfg := { Settings.reset with tDrain := 0#16 } }
    s.seq = .listen ∧ s.wq.length = 1 := by decide +kernel

/-- The end of a listening window, a refresh asked for and a partition effective. -/
def refreshing : State :=
  { waitingIn .listen with
    cfg := onePartition.cfg, cyc := { ReadCycle.reset with refreshReq := true, valid := true }
    listenMs := 499, script := [.tickMs] }

/-- A step that clears refresh_req starts a cycle; and a read step that is not due, due, dropped,
complete, or with a partition pending. -/
theorem witness_ReadStepTakesLowestPartition :
    (step refreshing = .next (after (step refreshing)) ∧ refreshing.cyc.refreshReq = true ∧
      (after (step refreshing)).cyc.refreshReq = false) ∧
    (State.reset.cyc.active = false ∧ effEn State.reset = 0#8) ∧
    (let s := { onePartition with cyc := ReadCycle.reset }
     s.cyc.active = false ∧ irqSet .cycleDone s = false ∧ effEn s ≠ 0#8 ∧ s.cyc.valid = false) ∧
    (let s := { State.reset with cyc := { ReadCycle.reset with active := true } }
     s.cyc.active = true ∧ effEn s = 0#8) ∧
    (let s := { onePartition with cyc := { ReadCycle.reset with active := true, doneMask := 1#8 } }
     s.cyc.active = true ∧ effEn s ≠ 0#8 ∧ effEn s &&& ~~~s.cyc.doneMask = 0#8) ∧
    (onePartition.cyc.active = true ∧
      (effEn onePartition &&& ~~~onePartition.cyc.doneMask).getLsbD 0 = true) := by
  refine ⟨⟨by rfl, by rfl, by decide +kernel⟩, by decide⟩

theorem witness_ModeSequenceStarts : Zone.z1 ≠ .z0 := by decide

theorem witness_ModeMergeAndPrograms :
    15 < 16 ∧
    ({ ModeRun.reset with latZ := true, zcode := 0x24#8 } : ModeRun).latZ = true ∧
    ({ ModeRun.reset with af := true } : ModeRun).af = true ∧ ModeRun.reset.af = false := by decide

/-! ### Steps and the invariant -/

/-- At reset `tick_bit` comes first whatever TICK_PHASE is; after nine of them `tick_ms` does. -/
theorem witness_StepTakesNextEvent :
    State.reset.script = [] ∧
    5 * (State.reset.bitTicks + 1) + Config.tickPhase.val ≤ 48 * (State.reset.msTicks + 1) ∧
    48 * (({ State.reset with bitTicks := 9 } : State).msTicks + 1) <
      5 * (({ State.reset with bitTicks := 9 } : State).bitTicks + 1) + Config.tickPhase.val ∧
    ({ State.reset with script := [.reset] } : State).script = .reset :: [] := by
  have h := Config.tickPhase.isLt
  refine ⟨rfl, ?_, ?_, rfl⟩
  · show 5 * (0 + 1) + Config.tickPhase.val ≤ 48 * (0 + 1)
    omega
  · show 48 * (0 + 1) < 5 * (9 + 1) + Config.tickPhase.val
    omega

theorem witness_StepRunsDecodedInstruction :
    (nextEvent { State.reset with script := [.busWrite 0x01C#14 0x00000001#32] } =
        (.busWrite 0x01C#14 0x00000001#32, State.reset) ∧
      hostReg 0x01C#14 = some .cmd ∧ decodeCommand 0x00000001#32 = .ok .crcInit) ∧
    (let u := State.withFetchWord State.reset 64 0x718501000000030A
     (nextEvent u).1 = .tickBit ∧ u.seq ≠ .tx ∧ u.rx.inFrame = true ∧ u.rx.active = false ∧
      u.rx.ferr = false ∧ u.rx.len = u.rx.buf.length ∧ u.rx.len ≤ 256 ∧
      u.cfg.tGap.toNat ≤ min (u.rx.gap + 1) 255 ∧ openRole u = some .request ∧
      decodeFrame .request u.rx.buf = .ok (.readRequest 0x0A#8 0#16 1#16 [])) := by
  decide +kernel

/-- States at rest that differ from reset in what a test sets meet the invariant. -/
theorem rest_inv (en : Bool) (irq : BitVec 9) (vr : Memory U16) (script : List Event)
    (hv : Memory.wf vr = true ∧ memBelow Config.vrWords vr = true) :
    Inv { State.reset with en := en, irqStatus := irq, vr := vr, script := script } where
  memory := ⟨⟨rfl, rfl⟩, ⟨rfl, rfl⟩, ⟨rfl, rfl⟩, hv⟩
  range := ⟨(by decide : (0#9).toNat ≤ 256), (by decide : 10 ≤ (60#16).toNat),
    (by decide : 1 ≤ (35#8).toNat), (by decide : 0 ≤ 8), nofun, Nat.zero_le _, Nat.zero_le _,
    Nat.zero_le _, Nat.zero_le _, Nat.zero_le _, Nat.zero_le _⟩
  receiver := ⟨Nat.zero_le _, Nat.zero_le _, rfl, nofun, fun _ => ⟨rfl, rfl, rfl, rfl⟩, nofun⟩
  transaction := ⟨by simp [State.reset, Transmitter.reset], by simp [State.reset],
    by simp [State.reset], fun _ => rfl, nofun, nofun, nofun, nofun⟩
  arbiter := ⟨by simp [State.reset], fun _ => ⟨rfl, rfl⟩, nofun, nofun, fun _ => .inl rfl,
    fun _ => rfl⟩

/-- With EN at either value, in and out of a transaction; and the state after reset. -/
theorem witness_StopsWaitAndReturnToInit :
    ((0#32).extractLsb' 0 4 = 0#4 ∧ (waitingIn .wait).en = true ∧
      inTxn (waitingIn .wait) = true ∧ inTurn (waitingIn .wait) = true) ∧
    ((3#32).extractLsb' 0 4 = (if (waitingIn .listen).en then 3#4 else 2#4) ∧
      inTxn (waitingIn .listen) = false ∧ inTurn (waitingIn .listen) = false) ∧
    ((2#32).extractLsb' 0 4 =
        (if ({ waitingIn .wait with en := false } : State).en then 3#4 else 2#4) ∧
      inTxn { waitingIn .wait with en := false } = true) ∧
    (2#32).extractLsb' 0 4 = (if State.reset.en then 3#4 else 2#4) ∧ inTxn State.reset = false ∧
    State.reset.en = false ∧ Inv State.reset := by
  refine ⟨by decide, by decide, by decide, by decide, by decide, by decide, ?_⟩
  exact rest_inv false 0#9 [] [] (by decide)

/-- A mode read in its guard on a line silent for 100 ms. -/
def guarding : State :=
  { waitingIn .guard with
    txn := some modeTxn, tx := { Transmitter.reset with buf := requestOf modeTxn }, quietMs := 100
    script := [.tickMs] }

theorem guarding_inv : Inv guarding where
  memory := ⟨by decide, by decide, by decide, by decide⟩
  range := ⟨by decide, by decide, by decide, by decide, by decide, by decide, by decide, by decide,
    by decide, by decide, by decide⟩
  receiver := ⟨by decide, by decide, by decide, by decide, by decide, by decide⟩
  transaction := ⟨by decide, by decide, nofun, by decide, by rintro t ⟨⟩; rfl,
    (by rintro t v p ⟨⟩ h; cases h), by rintro t ⟨⟩; exact ⟨.inl rfl, rfl, rfl, rfl⟩, by decide⟩
  arbiter := ⟨by decide, by decide, by decide, by decide, by decide, by decide⟩

/-- The first byte of an observed frame takes INIT to SLAVE. -/
theorem witness_ArbiterChangesOnlyAsTabled :
    ∃ s t : State, Inv s ∧ step s = .next t ∧ t.arb ≠ s.arb :=
  ⟨_, _, rest_inv true 0#9 [] [.rxByte 0x0A#8 false] (by decide), rfl, by decide⟩

theorem witness_TransmitsOnlyInMaster :
    ∃ (s t : State) (b : Byte), Inv s ∧ step s = .next t ∧ t.outLog = s.outLog ++ [.txByte b] :=
  ⟨guarding, after (step guarding), 0x0A#8, guarding_inv, by rfl, by decide +kernel⟩

theorem witness_ValuesStableWhileCycleDone :
    ∃ s t : State, Inv s ∧ irqSet .cycleDone s = true ∧ step s = .next t ∧ t.vr ≠ s.vr :=
  ⟨_, _, rest_inv false 1#9 [(0, 5#16)] [.busWrite 0x008#14 4#32] (by decide), by decide, rfl,
    by decide⟩

theorem witness_QueueChangesOnlyByRule :
    ∃ s t : State, Inv s ∧ step s = .next t ∧ t.wq ≠ s.wq :=
  ⟨_, _, rest_inv false 0#9 [] [.busWrite 0x01C#14 0x00010030#32] (by decide), rfl, by decide⟩

theorem witness_StepKeepsInvariant : ∃ s t : State, Inv s ∧ step s = .next t :=
  ⟨guarding, after (step guarding), guarding_inv, by rfl⟩

end Sys2Proof.Tests
end

section
/-! PROOFS. Which event a step handles (00_scope.md R18, R19): the laws of `nextEvent`, `nextTick` and
`step`, and the statement of that family. -/

namespace Sys2Proof.Proofs.NextEvent

open Sys2Proof Sys2Proof.Machine

/-! ## The next tick -/

/-- R19: a `tick_bit` that falls together with a `tick_ms` comes first. -/
theorem nextTick_eq_tickBit {s : State}
    (h : 5 * (s.bitTicks + 1) + Config.tickPhase.val ≤ 48 * (s.msTicks + 1)) :
    nextTick s = .tickBit := if_pos h

theorem nextTick_eq_tickMs {s : State}
    (h : 48 * (s.msTicks + 1) < 5 * (s.bitTicks + 1) + Config.tickPhase.val) :
    nextTick s = .tickMs := if_neg (Nat.not_le_of_lt h)

/-! ## The next event -/

theorem nextEvent_of_script_cons {e : Event} {rest : List Event} {s : State}
    (h : s.script = e :: rest) : nextEvent s = (e, { s with script := rest }) := by
  simp only [nextEvent, h]

theorem nextEvent_of_script_nil {s : State} (h : s.script = []) :
    nextEvent s = (nextTick s, s) := by
  simp only [nextEvent, h]

/-! ## The step -/

theorem step_of_nextEvent {e : Event} {s u : State} (h : nextEvent s = (e, u)) :
    step s = handle exec e u := by
  rw [step, h]

theorem step_of_script_cons {e : Event} {rest : List Event} {s : State}
    (h : s.script = e :: rest) : step s = handle exec e { s with script := rest } :=
  step_of_nextEvent (nextEvent_of_script_cons h)

theorem step_of_script_nil {s : State} (h : s.script = []) :
    step s = handle exec (nextTick s) s :=
  step_of_nextEvent (nextEvent_of_script_nil h)

/-- Settles O54: a waiting event comes first; with none, the comparison of the two due times picks the
tick. -/
theorem stepTakesNextEvent : Obligations.StepTakesNextEvent := by
  refine ⟨fun e rest s hcons => step_of_script_cons hcons, fun s hnil => ⟨?_, ?_⟩⟩
  · intro hbit
    rw [step_of_script_nil hnil, nextTick_eq_tickBit hbit]
  · intro hms
    rw [step_of_script_nil hnil, nextTick_eq_tickMs hms]

end Sys2Proof.Proofs.NextEvent
end

section
/-! PROOFS. The state after reset (10_state.md R170). -/

namespace Sys2Proof.Proofs.ResetValues

open Sys2Proof Sys2Proof.Machine

/-- Settles O1: each register is read; a memory that nothing has written gives its draw. -/
theorem resetValuesAsTabled : Obligations.ResetValuesAsTabled := by
  refine ⟨?registers, ?partitions, fun _ => ⟨rfl, rfl, rfl, rfl, rfl⟩, ?pieces⟩
  case registers => decide
  case partitions => decide
  case pieces => decide

end Sys2Proof.Proofs.ResetValues
end

section
/-! PROOFS. What the host bus does at a mapped word (20_memory.md R203, R210–R212): an access is the
read or the write of the word, each word holds its fields at their places, and what the words the
map marks RO, RW and WARL give back; the partition table. -/

namespace Sys2Proof.Proofs.HostAccess

open Sys2Proof Sys2Proof.Machine

/-! ## An access is the access of its word -/

theorem busReadData_of_hostReg {a : BitVec 14} {r : HostReg} (h : hostReg a = some r) (s : State) :
    busReadData a s = readReg r s := by
  simp only [busReadData, h]

theorem handle_busWrite_of_hostReg {a : BitVec 14} {r : HostReg} (h : hostReg a = some r)
    (hcmd : r ≠ .cmd) (v : Word) (s : State) :
    handle exec (.busWrite a v) s = .next (writeReg r v s) := by
  simp only [handle, busWrite, h, if_neg hcmd]

theorem ne_cmd_of_readOnly {r : HostReg} (h : r.readOnly = true) : r ≠ .cmd := by
  rintro rfl; cases h

theorem ne_cmd_of_readBack {r : HostReg} {v w : Word} (h : readBack r v = some w) : r ≠ .cmd := by
  rintro rfl; cases h

theorem writeReg_of_readOnly {r : HostReg} (h : r.readOnly = true) (v : Word) (s : State) :
    writeReg r v s = s := by
  cases r with
  | id | version | status | cmdStatus | pres0 | pres1 | wqStatus | modeStatus | modeSlots
  | cntFrames | cntSnoopErr | cntTxnOk | cntTxnFail | cntCycles | cntAborts | snoopLen | snoopRes0
  | snoopRes1 | cycleStatus | snoopBuf | vr => rfl
  | _ => cases h

/-! ## Bits and fields -/

/-- A bit in the lower part of a concatenation. -/
theorem getLsbD_append_of_lt {m n i : Nat} {x : BitVec m} {y : BitVec n} (h : i < n) :
    (x ++ y).getLsbD i = y.getLsbD i := by
  rw [BitVec.getLsbD_append, if_pos h]

/-- A bit in the upper part of a concatenation. -/
theorem getLsbD_append_of_le {m n i : Nat} {x : BitVec m} {y : BitVec n} (h : n ≤ i) :
    (x ++ y).getLsbD i = x.getLsbD (i - n) := by
  rw [BitVec.getLsbD_append, if_neg (Nat.not_lt.2 h)]

theorem getLsbD_ofBool_zero (b : Bool) : (BitVec.ofBool b).getLsbD 0 = b := by cases b <;> rfl

theorem ofBool_getLsbD {w : Nat} (v : BitVec w) (i : Nat) :
    BitVec.ofBool (v.getLsbD i) = v.extractLsb' i 1 := by
  ext j hj
  obtain rfl : j = 0 := by omega
  simp

/-- A bit of a field is the bit of the word at its place. -/
theorem getLsbD_of_extractLsb'_eq {w k n : Nat} {v : BitVec w} {x : BitVec n}
    (h : v.extractLsb' k n = x) {i : Nat} (hi : i < n) : v.getLsbD (k + i) = x.getLsbD i := by
  rw [← h, BitVec.getLsbD_extractLsb', decide_eq_true hi, Bool.true_and]

/-- A word that is one field with zeros above it. -/
theorem setWidth_fields {m n : Nat} (x : BitVec n) (h : n + m = 32) :
    (x.setWidth 32).extractLsb' 0 n = x ∧ (x.setWidth 32).extractLsb' n m = 0#m := by
  constructor
  · rw [BitVec.extractLsb'_setWidth_of_le (by omega), BitVec.extractLsb'_eq_self]
  · ext i hi
    simp

/-- A word's low field with zeros above it is the word under the field's mask. -/
theorem setWidth_extractLsb'_zero (n : Nat) (v : Word) :
    (v.extractLsb' 0 n).setWidth 32 = v &&& BitVec.ofNat 32 (2 ^ n - 1) := by
  apply BitVec.eq_of_getLsbD_eq
  intro i hi
  simp only [BitVec.getLsbD_setWidth, BitVec.getLsbD_extractLsb', BitVec.getLsbD_and,
    BitVec.getLsbD_ofNat, Nat.testBit_two_pow_sub_one, Nat.zero_add, hi, decide_true, Bool.true_and,
    Bool.and_comm]

/-! ## The fields of each word (10_state.md R104–R140)

A word is a concatenation: a field is found by leaving the fields below it, then those above it. -/

theorem statusWord_fields (s : State) :
    (statusWord s).extractLsb' 0 2 = s.arb.code ∧ (statusWord s).getLsbD 2 = inTurn s ∧
    (statusWord s).getLsbD 3 = inTxn s ∧ (statusWord s).getLsbD 4 = s.cyc.active ∧
    (statusWord s).getLsbD 5 = s.cyc.refreshReq ∧ (statusWord s).getLsbD 6 = s.rx.inFrame ∧
    (statusWord s).getLsbD 7 = s.cyc.valid ∧ (statusWord s).extractLsb' 8 4 = ferrCode s.lastErr ∧
    (statusWord s).extractLsb' 12 2 = s.lastAbort.code ∧ (statusWord s).getLsbD 14 = s.tx.de ∧
    (statusWord s).getLsbD 15 = s.stopPending.isSome ∧
    (statusWord s).extractLsb' 16 4 = s.seq.code ∧
    (statusWord s).extractLsb' 20 2 = (if inTurn s then s.unit.code else 0#2) ∧
    (statusWord s).extractLsb' 22 3 = BitVec.ofNat 3 s.step ∧
    (statusWord s).extractLsb' 25 7 = 0#7 := by
  simp (disch := decide) only [statusWord, BitVec.extractLsb'_append_eq_of_le,
    BitVec.extractLsb'_append_eq_of_add_le, getLsbD_append_of_lt, getLsbD_append_of_le,
    Nat.reduceSub, Nat.sub_self, BitVec.extractLsb'_eq_self, getLsbD_ofBool_zero, and_self]

theorem cmdStatusWord_fields (s : State) :
    (cmdStatusWord s).extractLsb' 0 4 = cerrCode s.host.cerr ∧
    (cmdStatusWord s).extractLsb' 4 28 = 0#24 ++ ferrCode s.host.ferr := by
  simp (disch := decide) only [cmdStatusWord, BitVec.extractLsb'_append_eq_of_le,
    BitVec.extractLsb'_append_eq_of_add_le, Nat.sub_self, BitVec.extractLsb'_eq_self, and_self]

theorem argWord_fields (s : State) :
    (argWord s).extractLsb' 0 16 = s.host.argStart ∧ (argWord s).extractLsb' 16 8 = s.host.argAddr ∧
    (argWord s).extractLsb' 24 8 = s.host.argFunc := by
  simp (disch := decide) only [argWord, BitVec.extractLsb'_append_eq_of_le,
    BitVec.extractLsb'_append_eq_of_add_le, Nat.reduceSub, Nat.sub_self, BitVec.extractLsb'_eq_self,
    and_self]

/-- A word of two 16-bit fields (R113, R117). -/
theorem halves_fields (hi lo : U16) :
    (hi ++ lo : Word).extractLsb' 0 16 = lo ∧ (hi ++ lo : Word).extractLsb' 16 16 = hi :=
  ⟨BitVec.extractLsb'_append_eq_right, BitVec.extractLsb'_append_eq_left⟩

theorem parseResult_fields (r : ParseResult) :
    r.word0.extractLsb' 0 2 = r.kind.code ∧ r.word0.extractLsb' 2 6 = 0#6 ∧
    r.word0.extractLsb' 8 8 = r.addr ∧ r.word0.extractLsb' 16 8 = r.func ∧
    r.word0.extractLsb' 24 8 = 0#8 ∧
    r.word1.extractLsb' 0 16 = r.start ∧ r.word1.extractLsb' 16 16 = r.count := by
  simp (disch := decide) only [ParseResult.word0, ParseResult.word1,
    BitVec.extractLsb'_append_eq_of_le, BitVec.extractLsb'_append_eq_of_add_le, Nat.reduceSub,
    Nat.sub_self, BitVec.extractLsb'_eq_self, and_self]

theorem wqStatusWord_fields (s : State) :
    (wqStatusWord s).extractLsb' 0 4 = BitVec.ofNat 4 s.wq.length ∧
    (wqStatusWord s).extractLsb' 4 4 = 0#4 ∧
    (wqStatusWord s).getLsbD 8 = (s.wq.length == 8) ∧ (wqStatusWord s).getLsbD 9 = s.wq.isEmpty ∧
    (wqStatusWord s).extractLsb' 10 22 = 0#22 := by
  simp (disch := decide) only [wqStatusWord, BitVec.extractLsb'_append_eq_of_le,
    BitVec.extractLsb'_append_eq_of_add_le, getLsbD_append_of_lt, getLsbD_append_of_le,
    Nat.reduceSub, Nat.sub_self, BitVec.extractLsb'_eq_self, getLsbD_ofBool_zero, and_self]

theorem modeStatusWord_fields (s : State) :
    (modeStatusWord s).getLsbD 0 = s.slots0.zone.pend ∧
    (modeStatusWord s).getLsbD 1 = s.slots0.hot.pend ∧
    (modeStatusWord s).getLsbD 2 = s.slots1.zone.pend ∧
    (modeStatusWord s).getLsbD 3 = s.slots1.hot.pend ∧
    (modeStatusWord s).extractLsb' 4 28 = 0#28 := by
  simp (disch := decide) only [modeStatusWord, BitVec.extractLsb'_append_eq_of_le,
    getLsbD_append_of_lt, getLsbD_append_of_le, Nat.reduceSub, Nat.sub_self,
    BitVec.extractLsb'_eq_self, getLsbD_ofBool_zero, and_self]

theorem modeSlotsWord_fields (s : State) :
    (modeSlotsWord s).extractLsb' 0 8 = s.slots0.zone.code ∧
    (modeSlotsWord s).extractLsb' 8 8 = s.slots0.hot.code ∧
    (modeSlotsWord s).extractLsb' 16 8 = s.slots1.zone.code ∧
    (modeSlotsWord s).extractLsb' 24 8 = s.slots1.hot.code := by
  simp (disch := decide) only [modeSlotsWord, BitVec.extractLsb'_append_eq_of_le,
    BitVec.extractLsb'_append_eq_of_add_le, Nat.reduceSub, Nat.sub_self, BitVec.extractLsb'_eq_self,
    and_self]

theorem modeEnWord_fields (s : State) :
    (modeEnWord s).getLsbD 0 = s.cfg.modeEn0 ∧ (modeEnWord s).getLsbD 1 = s.cfg.modeEn1 ∧
    (modeEnWord s).extractLsb' 2 30 = 0#30 := by
  simp (disch := decide) only [modeEnWord, BitVec.extractLsb'_append_eq_of_le, getLsbD_append_of_lt,
    getLsbD_append_of_le, Nat.reduceSub, Nat.sub_self, BitVec.extractLsb'_eq_self,
    getLsbD_ofBool_zero, and_self]

theorem snoopLenWord_fields (s : State) :
    (snoopLenWord s).extractLsb' 0 9 = s.snoop.len ∧ (snoopLenWord s).getLsbD 9 = s.snoop.ovf ∧
    (snoopLenWord s).getLsbD 10 = s.snoop.uerr ∧ (snoopLenWord s).getLsbD 11 = false ∧
    (snoopLenWord s).extractLsb' 12 4 = ferrCode s.snoop.ferr ∧
    (snoopLenWord s).extractLsb' 16 16 = 0#16 := by
  simp (disch := decide) only [snoopLenWord, BitVec.extractLsb'_append_eq_of_le,
    BitVec.extractLsb'_append_eq_of_add_le, getLsbD_append_of_lt, getLsbD_append_of_le,
    Nat.reduceSub, Nat.sub_self, BitVec.extractLsb'_eq_self, getLsbD_ofBool_zero,
    BitVec.getLsbD_zero, and_self]

theorem cycleStatusWord_fields (s : State) :
    (cycleStatusWord s).extractLsb' 0 8 = s.cyc.doneMask ∧
    (cycleStatusWord s).extractLsb' 8 8 = effEn s ∧
    (cycleStatusWord s).extractLsb' 16 16 = 0#16 := by
  simp (disch := decide) only [cycleStatusWord, BitVec.extractLsb'_append_eq_of_le,
    BitVec.extractLsb'_append_eq_of_add_le, Nat.reduceSub, Nat.sub_self, BitVec.extractLsb'_eq_self,
    and_self]

theorem ptRangeWord_fields (p : Fin 8) (s : State) :
    (ptRangeWord p s).extractLsb' 0 16 = s.cfg.pt[p].start ∧
    (ptRangeWord p s).extractLsb' 16 7 = s.cfg.pt[p].count ∧
    (ptRangeWord p s).extractLsb' 23 9 = 0#9 := by
  simp (disch := decide) only [ptRangeWord, BitVec.extractLsb'_append_eq_of_le,
    BitVec.extractLsb'_append_eq_of_add_le, Nat.reduceSub, Nat.sub_self, BitVec.extractLsb'_eq_self,
    and_self]

theorem ptBaseWord_fields (p : Fin 8) (s : State) :
    (ptBaseWord p s).extractLsb' 0 9 = s.cfg.pt[p].base ∧
    (ptBaseWord p s).extractLsb' 9 22 = 0#22 ∧
    (ptBaseWord p s).getLsbD 31 = s.cfg.pt[p].effective := by
  simp (disch := decide) only [ptBaseWord, BitVec.extractLsb'_append_eq_of_le,
    BitVec.extractLsb'_append_eq_of_add_le, getLsbD_append_of_le, Nat.reduceSub, Nat.sub_self,
    BitVec.extractLsb'_eq_self, getLsbD_ofBool_zero, and_self]

theorem vrWord_fields (i : Nat) (s : State) :
    (vrWord i s).extractLsb' 0 16 = vrValue s i ∧ (vrWord i s).getLsbD 16 = vrValid s i ∧
    (vrWord i s).extractLsb' 17 15 = 0#15 := by
  simp (disch := decide) only [vrWord, BitVec.extractLsb'_append_eq_of_le,
    BitVec.extractLsb'_append_eq_of_add_le, getLsbD_append_of_lt, getLsbD_append_of_le,
    Nat.reduceSub, Nat.sub_self, BitVec.extractLsb'_eq_self, getLsbD_ofBool_zero, and_self]

/-! ## What a RW or WARL word reads after a write -/

theorem argFields_append (v : Word) :
    v.extractLsb' 24 8 ++ v.extractLsb' 16 8 ++ v.extractLsb' 0 16 = v := by
  simp (disch := decide) only [BitVec.extractLsb'_append_extractLsb'_eq_extractLsb']
  exact BitVec.extractLsb'_eq_self

theorem modeEnBits_append (v : Word) :
    0#30 ++ BitVec.ofBool (v.getLsbD 1) ++ BitVec.ofBool (v.getLsbD 0) = v &&& 3#32 := by
  rw [ofBool_getLsbD, ofBool_getLsbD, BitVec.append_assoc,
    BitVec.extractLsb'_append_extractLsb'_eq_extractLsb' (show 1 = 0 + 1 from rfl)]
  exact (BitVec.setWidth_eq_append (by decide)).symm.trans (setWidth_extractLsb'_zero 2 v)

theorem ptRangeFields_append (v : Word) :
    0#9 ++ v.extractLsb' 16 7 ++ v.extractLsb' 0 16 = v &&& 0x7FFFFF#32 := by
  rw [BitVec.append_assoc,
    BitVec.extractLsb'_append_extractLsb'_eq_extractLsb' (show 16 = 0 + 16 from rfl)]
  exact (BitVec.setWidth_eq_append (by decide)).symm.trans (setWidth_extractLsb'_zero 23 v)

theorem setWidth_legalHlen (x : BitVec 9) : (legalHlen x).setWidth 32 =
    if (x.setWidth 32).toNat > 256 then 256#32 else x.setWidth 32 := by
  have hx : (x.setWidth 32).toNat = x.toNat := BitVec.toNat_setWidth_of_le (by decide)
  simp only [legalHlen, hx]
  split <;> rfl

theorem setWidth_legalPeriod (x : U16) : (legalPeriod x).setWidth 32 =
    if (x.setWidth 32).toNat < 10 then 10#32 else x.setWidth 32 := by
  have hx : (x.setWidth 32).toNat = x.toNat := BitVec.toNat_setWidth_of_le (by decide)
  simp only [legalPeriod, hx]
  split <;> rfl

theorem setWidth_legalGap (x : Byte) : (legalGap x).setWidth 32 =
    if x.setWidth 32 = 0#32 then 1#32 else x.setWidth 32 := by
  have hx : x.setWidth 32 = 0#32 ↔ x = 0#8 := by
    simp only [← BitVec.toNat_inj, BitVec.toNat_setWidth_of_le (show 8 ≤ 32 by decide),
      BitVec.toNat_ofNat, Nat.zero_mod]
  simp only [legalGap, hx]
  split <;> rfl

theorem hbufAt_writeReg (i : Nat) (v : Word) (s : State) :
    hbufAt (writeReg (.hbuf i) v s) i = v.extractLsb' 0 8 := by
  simp [hbufAt, writeReg]

theorem hvalAt_writeReg (i : Nat) (v : Word) (s : State) :
    hvalAt (writeReg (.hval i) v s) i = v.extractLsb' 0 16 := by
  simp [hvalAt, writeReg]

/-- Replacing entry `p` of the partition table replaces that entry only. -/
theorem getElem_pt_set (t : Vector Partition 8) (p : Fin 8) (e : Partition) :
    (t.set p e)[p] = e ∧ ∀ q : Fin 8, q ≠ p → (t.set p e)[q] = t[q] :=
  ⟨Vector.getElem_set_self p.isLt, fun q hq =>
    Vector.getElem_set_ne p.isLt q.isLt fun h => hq (Fin.ext h.symm)⟩

/-- R102: a RW or WARL word reads the value written, reserved bits 0 and illegal values replaced. -/
theorem readReg_writeReg {r : HostReg} {v w : Word} (h : readBack r v = some w) (s : State) :
    readReg r (writeReg r v s) = w := by
  cases r with
  | irqEnable => cases h; exact setWidth_extractLsb'_zero 9 v
  | slaveAddr => cases h; exact setWidth_extractLsb'_zero 8 v
  | crcAcc | tQuiet | tTxn | tDrain | tPause | tIdle | tListen =>
    cases h; exact setWidth_extractLsb'_zero 16 v
  | hlen => cases h; exact setWidth_extractLsb'_zero 9 v ▸ setWidth_legalHlen _
  | cyclePeriod => cases h; exact setWidth_extractLsb'_zero 16 v ▸ setWidth_legalPeriod _
  | tGap => cases h; exact setWidth_extractLsb'_zero 8 v ▸ setWidth_legalGap _
  | arg => cases h; exact argFields_append v
  | modeCfg0 | modeCfg1 => cases h; exact BitVec.extractLsb'_append_extractLsb'
  | modeEn => cases h; exact modeEnBits_append v
  | ptRange p =>
    cases h
    obtain ⟨entry, -⟩ := getElem_pt_set s.cfg.pt p ((s.cfg.pt[p]).withRange v)
    exact (congrArg (fun e : Partition => 0#9 ++ e.count ++ e.start) entry).trans
      (ptRangeFields_append v)
  | hbuf i =>
    cases h
    rw [readReg, hbufAt_writeReg]
    exact setWidth_extractLsb'_zero 8 v
  | hval i =>
    cases h
    rw [readReg, hvalAt_writeReg]
    exact setWidth_extractLsb'_zero 16 v
  | _ => cases h

/-! ## The views of the sequencer -/

theorem inTurn_iff (s : State) :
    inTurn s = true ↔ s.seq = .guard ∨ s.seq = .tx ∨ s.seq = .wait ∨ s.seq = .pause := by
  unfold inTurn
  cases s.seq <;> decide

theorem inTxn_iff (s : State) : inTxn s = true ↔ s.seq = .tx ∨ s.seq = .wait := by
  unfold inTxn
  cases s.seq <;> decide

theorem irqStatus_getLsbD (f : IrqFlag) (s : State) :
    (s.irqStatus.setWidth 32).getLsbD f.bit = irqSet f s := by
  have small : f.bit < 32 := by cases f <;> decide
  rw [BitVec.getLsbD_setWidth, decide_eq_true small, Bool.true_and]
  rfl

/-! ## The statements -/

/-- Settles O6: a read is the word's read, whose fields the lemmas above give; a write to a word
marked RO changes nothing, one to a RW or WARL word is read back. -/
theorem accessTypesOfRegisters : Obligations.AccessTypesOfRegisters := by
  refine ⟨?readOnly, ?readBack, ?ctrl, ?irqStatus, ?cerr, ?status, ?ferr, ?wqStatus, ?modeStatus,
    ?modeSlots, ?snoopLen, ?cycleStatus, ?results, ?counters, ?whole, ?fields, ?ptRange, ?memories⟩
  case readOnly =>
    intro a r v s ha hro
    rw [handle_busWrite_of_hostReg ha (ne_cmd_of_readOnly hro), writeReg_of_readOnly hro]
  case readBack =>
    intro a r v w s ha hw
    exact ⟨_, handle_busWrite_of_hostReg ha (ne_cmd_of_readBack hw) v s,
      (busReadData_of_hostReg ha _).trans (readReg_writeReg hw s)⟩
  case ctrl =>
    refine fun s => ⟨rfl, rfl, ?_⟩
    change 0#31 ++ BitVec.ofBool s.en = _
    cases s.en <;> rfl
  case irqStatus =>
    intro s
    obtain ⟨flags, zero⟩ := setWidth_fields (m := 23) s.irqStatus rfl
    refine ⟨flags, zero, fun p hp => ?_⟩
    have place : p.1 = p.2.bit := by revert p; decide
    exact place ▸ irqStatus_getLsbD p.2 s
  case cerr =>
    intro s
    obtain ⟨cerr, -⟩ := cmdStatusWord_fields s
    exact cerr
  case status =>
    intro s
    obtain ⟨arb, turn, txn, active, refresh, inFrame, valid, -, abort, de, stop, seq, unit, step,
      zero⟩ := statusWord_fields s
    refine ⟨arb, turn ▸ inTurn_iff s, txn ▸ inTxn_iff s, active, refresh, inFrame, valid, abort, de,
      stop ▸ Option.isSome_iff_ne_none, seq, fun ht => ?_, fun ht => ?_, step, zero⟩
    · exact unit.trans (if_pos ((inTurn_iff s).2 ht))
    · exact unit.trans (if_neg (mt (inTurn_iff s).1 ht))
  case ferr =>
    intro p hp s
    have code : ferrCode p.2 = BitVec.ofNat 4 p.1 := by revert p; decide
    have code28 : 0#24 ++ ferrCode p.2 = BitVec.ofNat 28 p.1 := by revert p; decide
    obtain ⟨-, -, -, -, -, -, -, lastErr, -⟩ := statusWord_fields s
    obtain ⟨-, hostErr⟩ := cmdStatusWord_fields s
    obtain ⟨-, -, -, -, snoopErr, -⟩ := snoopLenWord_fields s
    exact ⟨fun h => lastErr.trans (h ▸ code), fun h => hostErr.trans (h ▸ code28),
      fun h => snoopErr.trans (h ▸ code)⟩
  case wqStatus =>
    intro s
    obtain ⟨count, gap, full, empty, zero⟩ := wqStatusWord_fields s
    exact ⟨count, gap, full ▸ beq_iff_eq, empty ▸ List.isEmpty_iff, zero⟩
  case modeStatus => exact modeStatusWord_fields
  case modeSlots => exact modeSlotsWord_fields
  case snoopLen =>
    intro s
    obtain ⟨len, ovf, uerr, gap, -, zero⟩ := snoopLenWord_fields s
    exact ⟨len, ovf, uerr, gap, zero⟩
  case cycleStatus =>
    intro s
    obtain ⟨done, -, zero⟩ := cycleStatusWord_fields s
    exact ⟨done, zero⟩
  case results =>
    intro s p hp
    have words : busReadData p.1 s = p.2.2.word0 ∧ busReadData p.2.1 s = p.2.2.word1 := by
      simp only [List.mem_cons, List.not_mem_nil, or_false] at hp
      rcases hp with rfl | rfl <;> dsimp only <;> exact ⟨rfl, rfl⟩
    obtain ⟨word0, word1⟩ := words
    rw [word0, word1]
    exact parseResult_fields p.2.2
  case counters => exact fun s => ⟨rfl, rfl, rfl, rfl, rfl, rfl⟩
  case whole => exact fun s => ⟨rfl, rfl, rfl, rfl, rfl, rfl, rfl, rfl, rfl, rfl, rfl, rfl⟩
  case fields =>
    exact fun s => ⟨argWord_fields s, halves_fields s.cfg.dcReg0 s.cfg.modeReg0,
      halves_fields s.cfg.dcReg1 s.cfg.modeReg1, modeEnWord_fields s⟩
  case ptRange =>
    intro a p s ha
    rw [busReadData_of_hostReg ha]
    exact ptRangeWord_fields p s
  case memories =>
    intro a i s
    refine ⟨busReadData_of_hostReg (s := s), busReadData_of_hostReg (s := s), fun ha => ?_,
      fun ha => ?_⟩ <;> rw [busReadData_of_hostReg ha]
    · exact setWidth_fields (snoopAt s i) rfl
    · exact vrWord_fields i s

theorem cycleStatusWord_eff (s : State) (p : Fin 8) :
    (cycleStatusWord s).getLsbD (8 + p.val) = (s.cfg.pt[p]).effective := by
  obtain ⟨-, eff, -⟩ := cycleStatusWord_fields s
  rw [getLsbD_of_extractLsb'_eq eff p.isLt, effEn_getLsbD]

/-- Settles O8: both bits are the entry's effectiveness, computed from the entry as stored; a write
replaces the one entry. -/
theorem partitionEffectiveWhenLegal : Obligations.PartitionEffectiveWhenLegal := by
  refine ⟨fun s p => ⟨?effEn, fun a ha => ?base⟩,
    fun a p v s => ⟨fun ha => ?writeRange, fun ha => ?writeBase⟩⟩
  case effEn => exact cycleStatusWord_eff s p ▸ Partition.effective_iff _
  case base =>
    rw [busReadData_of_hostReg ha]
    obtain ⟨base, zero, en⟩ := ptBaseWord_fields p s
    exact ⟨en ▸ Partition.effective_iff _, base, zero⟩
  case writeRange =>
    obtain ⟨entry, others⟩ := getElem_pt_set s.cfg.pt p ((s.cfg.pt[p]).withRange v)
    exact ⟨_, handle_busWrite_of_hostReg ha nofun v s, entry, others, rfl⟩
  case writeBase =>
    obtain ⟨entry, others⟩ := getElem_pt_set s.cfg.pt p ((s.cfg.pt[p]).withBase v)
    exact ⟨_, handle_busWrite_of_hostReg ha nofun v s, entry, others, rfl⟩

end Sys2Proof.Proofs.HostAccess
end

section
/-! PROOFS. The order of CTRL's actions (10_state.md R103) and what each leaves of EN. -/

namespace Sys2Proof.Proofs.CtrlWrites

open Sys2Proof Sys2Proof.Machine Sys2Proof.Proofs.HostAccess

/-! ## A stop leaves EN alone -/

@[simp] theorem abortTurn_en (reason : AbortReason) (s : State) :
    (abortTurn reason s).en = s.en := by
  rw [abortTurn_eq, setArb_en]

@[simp] theorem doStop_en (r : StopReason) (s : State) : (doStop r s).en = s.en := by
  unfold doStop
  cases r <;> dsimp only [restartReceiver] <;> split <;> simp

@[simp] theorem stopRequest_en (r : StopReason) (s : State) : (stopRequest r s).en = s.en := by
  unfold stopRequest
  split
  · split <;> rfl
  · exact doStop_en r s

/-! ## CTRL as its four parts -/

/-- EN takes its new value; a 1 → 0 change is a stop request (R103, R575). -/
def ctrlEn (b : Bool) (s : State) : State :=
  if s.en && !b then stopRequest .stop { s with en := b } else { s with en := b }

/-- REINIT (R103, R576). -/
def ctrlReinit (b : Bool) (s : State) : State := if b then stopRequest .reinit s else s

/-- INVALIDATE (R103, R690). -/
def ctrlInvalidate (b : Bool) (s : State) : State := if b then invalidate s else s

/-- REFRESH (R103, R684). -/
def ctrlRefresh (b : Bool) (s : State) : State :=
  if b then { s with cyc.refreshReq := true } else s

theorem writeCtrl_eq (v : Word) (s : State) : writeCtrl v s =
    ctrlRefresh (v.getLsbD 3) (ctrlInvalidate (v.getLsbD 2) (ctrlReinit (v.getLsbD 1)
      (ctrlEn (v.getLsbD 0) s))) := rfl

@[simp] theorem ctrlReinit_false (s : State) : ctrlReinit false s = s := rfl
@[simp] theorem ctrlInvalidate_false (s : State) : ctrlInvalidate false s = s := rfl
@[simp] theorem ctrlRefresh_false (s : State) : ctrlRefresh false s = s := rfl

@[simp] theorem ctrlEn_en (b : Bool) (s : State) : (ctrlEn b s).en = b := by
  unfold ctrlEn
  split
  · exact stopRequest_en .stop _
  · rfl

@[simp] theorem ctrlReinit_en (b : Bool) (s : State) : (ctrlReinit b s).en = s.en := by
  cases b
  · rfl
  · exact stopRequest_en .reinit s

@[simp] theorem ctrlInvalidate_en (b : Bool) (s : State) : (ctrlInvalidate b s).en = s.en := by
  cases b <;> rfl

/-- EN set, or kept, only takes its value. -/
theorem ctrlEn_of_no_stop {b : Bool} {s : State} (h : b = true ∨ b = s.en) :
    ctrlEn b s = { s with en := b } := by
  have noStop : ¬(s.en && !b) = true := by rcases h with rfl | rfl <;> simp
  exact if_neg noStop

theorem ctrlEn_kept {b : Bool} {s : State} (h : s.en = b) : ctrlEn b s = s := by
  subst h
  exact ctrlEn_of_no_stop (.inr rfl)

/-- A write with no action bit acts by EN alone. -/
theorem writeCtrl_of_no_action {v : Word} (h : v.extractLsb' 1 3 = 0#3) (s : State) :
    writeCtrl v s = ctrlEn (v.getLsbD 0) s := by
  have reinit : v.getLsbD 1 = false := getLsbD_of_extractLsb'_eq h (i := 0) (by decide)
  have invalidate : v.getLsbD 2 = false := getLsbD_of_extractLsb'_eq h (i := 1) (by decide)
  have refresh : v.getLsbD 3 = false := getLsbD_of_extractLsb'_eq h (i := 2) (by decide)
  rw [writeCtrl_eq, reinit, invalidate, refresh, ctrlReinit_false, ctrlInvalidate_false,
    ctrlRefresh_false]

/-- A write that keeps EN acts by its action bits alone. -/
theorem writeCtrl_of_en_kept {v : Word} {s : State} (h : s.en = v.getLsbD 0) :
    writeCtrl v s = ctrlRefresh (v.getLsbD 3) (ctrlInvalidate (v.getLsbD 2)
      (ctrlReinit (v.getLsbD 1) s)) := by
  rw [writeCtrl_eq, ctrlEn_kept h]

theorem handle_busWrite_ctrl (v : Word) (s : State) :
    handle exec (.busWrite 0x008#14 v) s = .next (writeCtrl v s) :=
  handle_busWrite_of_hostReg (r := .ctrl) rfl nofun v s

/-- Settles O9: after the first of the four writes EN stands as written, so each later one acts by
its own action bit only. -/
theorem ctrlActionsInOrder : Obligations.CtrlActionsInOrder := by
  refine ⟨fun v s => ?order, fun v s hv hen => ?enAlone, fun v s hv => ?refreshAlone⟩
  case order =>
    let s1 := ctrlEn (v.getLsbD 0) s
    let s2 := ctrlReinit (v.getLsbD 1) s1
    let s3 := ctrlInvalidate (v.getLsbD 2) s2
    have en1 : s1.en = v.getLsbD 0 := ctrlEn_en _ s
    have en2 : s2.en = v.getLsbD 0 := (ctrlReinit_en _ s1).trans en1
    have en3 : s3.en = v.getLsbD 0 := (ctrlInvalidate_en _ s2).trans en2
    refine ⟨s1, s2, s3, ctrlRefresh (v.getLsbD 3) s3, ?_, ?_, ?_, ?_, rfl⟩ <;>
      rw [handle_busWrite_ctrl]
    · rw [writeCtrl_of_no_action (by ext i; simp)]
      simp [s1]
    · rw [writeCtrl_of_en_kept (by simp [en1])]
      simp [s2]
    · rw [writeCtrl_of_en_kept (by simp [en2])]
      simp [s3]
    · rw [writeCtrl_of_en_kept (by simp [en3])]
      simp
  case enAlone => rw [handle_busWrite_ctrl, writeCtrl_of_no_action hv, ctrlEn_of_no_stop hen]
  case refreshAlone =>
    have bit : ∀ {i}, i < 4 → v.getLsbD (0 + i) = (if s.en then 9#4 else 8#4).getLsbD i :=
      getLsbD_of_extractLsb'_eq hv
    have en : s.en = v.getLsbD 0 := by rw [bit (i := 0) (by decide)]; cases s.en <;> rfl
    have reinit : v.getLsbD 1 = false := by rw [bit (i := 1) (by decide)]; cases s.en <;> rfl
    have invalidate : v.getLsbD 2 = false := by rw [bit (i := 2) (by decide)]; cases s.en <;> rfl
    have refresh : v.getLsbD 3 = true := by rw [bit (i := 3) (by decide)]; cases s.en <;> rfl
    rw [handle_busWrite_ctrl, writeCtrl_of_en_kept en, reinit, invalidate, refresh]
    rfl

end Sys2Proof.Proofs.CtrlWrites
end

section
/-! PROOFS. What changes the write queue (10_state.md R134, 45_turn_sequencer.md R677): the queue
through every operation and every event, and the statement of that family. -/

namespace Sys2Proof.Proofs.WriteQueue

open Sys2Proof Sys2Proof.Machine Sys2Proof.Proofs.CtrlWrites Sys2Proof.Proofs.NextEvent

/-! ## Operations that leave the queue and the last code alone -/

/-- The queue, with the code of the last transaction: what the turn's operations leave alone. -/
def queueView (s : State) : List WqEntry × Ferr := (s.wq, s.lastErr)

theorem wq_of_queueView {s t : State} (h : queueView t = queueView s) : t.wq = s.wq :=
  congrArg Prod.fst h

@[simp] theorem queueView_setArb (a : Arb) (s : State) : queueView (setArb a s) = queueView s := by
  simp [queueView]

@[simp] theorem queueView_leaveTurn (q : Seq) (s : State) :
    queueView (leaveTurn q s) = queueView s := rfl

@[simp] theorem queueView_abortTurn (reason : AbortReason) (s : State) :
    queueView (abortTurn reason s) = queueView s := by
  rw [abortTurn_eq, queueView_setArb]
  rfl

@[simp] theorem queueView_restartReceiver (s : State) :
    queueView (restartReceiver s) = queueView s := rfl

@[simp] theorem queueView_doStop (r : StopReason) (s : State) :
    queueView (doStop r s) = queueView s := by
  have stopped : queueView { s with stopPending := none } = queueView s := rfl
  unfold doStop
  cases r <;> dsimp only <;> split <;> simp [stopped]

@[simp] theorem queueView_stopRequest (r : StopReason) (s : State) :
    queueView (stopRequest r s) = queueView s := by
  unfold stopRequest
  split
  · split <;> rfl
  · exact queueView_doStop r s

@[simp] theorem queueView_beginRead (start count : U16) (p : ReadPurpose) (s : State) :
    queueView (beginRead start count p s) = queueView s := rfl

@[simp] theorem queueView_beginWrite (start : U16) (vals : List U16) (p : WritePurpose)
    (s : State) : queueView (beginWrite start vals p s) = queueView s := rfl

@[simp] theorem queueView_endTurn (s : State) : queueView (endTurn s) = queueView s := rfl

@[simp] theorem queueView_cycleStart (s : State) : queueView (cycleStart s) = queueView s := by
  unfold cycleStart
  split <;> rfl

@[simp] theorem queueView_readIdle (s : State) : queueView (readIdle s) = queueView s := by
  unfold readIdle
  split
  · rfl
  · split <;> rfl

@[simp] theorem queueView_readStep (s : State) : queueView (readStep s) = queueView s := by
  rcases readStep_cases s with h | ⟨p, -, -, h⟩ <;> simp [h]

@[simp] theorem queueView_readUnit (s : State) : queueView (readUnit s) = queueView s :=
  queueView_readStep _

@[simp] theorem queueView_drainNext (s : State) : queueView (drainNext s) = queueView s := by
  rcases drainNext_cases s with ⟨_, _, -, -, h⟩ | ⟨-, h⟩ <;> simp [h]

@[simp] theorem queueView_drainUnit (s : State) : queueView (drainUnit s) = queueView s :=
  queueView_drainNext _

@[simp] theorem queueView_modeStart (z : Zone) (s : State) :
    queueView (modeStart z s) = queueView s := by
  cases z <;> rfl

@[simp] theorem queueView_advance (u : TurnUnit) (s : State) :
    queueView (advance u s) = queueView s := by
  rcases advance_cases u s with ⟨z, -, h⟩ | h | h <;> simp [h]

@[simp] theorem queueView_runStep (s : State) : queueView (runStep s) = queueView s := by
  unfold runStep
  split
  · rfl
  · rfl
  · exact queueView_advance _ s

@[simp] theorem queueView_modeComplete (s : State) :
    queueView (modeComplete s) = queueView s := by
  unfold modeComplete
  split <;> rfl

@[simp] theorem queueView_partDone (p : Fin 8) (base : BitVec 9) (vals : List U16) (s : State) :
    queueView (partDone p base vals s) = queueView s := by
  unfold partDone
  split
  · rfl
  · dsimp only
    split <;> rfl

@[simp] theorem queueView_continueTurn (op : TxnOp) (r : Except Ferr (List U16)) (s : State) :
    queueView (continueTurn op r s) = queueView s := by
  match op, r with
  | .read _ .modeRead, .ok _ => exact queueView_runStep s
  | .read _ .modeRead, .error _ => exact queueView_advance _ s
  | .read _ (.partRead _ _), .ok _ | .read _ (.partRead _ _), .error _ => exact queueView_endTurn s
  | .write _ .modeWrite, .ok _ =>
    unfold continueTurn
    dsimp only
    split
    · exact queueView_advance _ s
    · exact queueView_runStep { s with step := s.step + 1 }
  | .write _ .modeWrite, .error _ => exact queueView_advance _ s
  | .write _ .drainWrite, .ok _ => exact queueView_drainNext s
  | .write _ .drainWrite, .error _ => exact queueView_readUnit s

/-! ## The end of a transaction -/

/-- From `s` to `t` the head of the queue left: a drain write was in progress and was acknowledged
(R677). -/
def DrainAcknowledged (s t : State) : Prop :=
  t.wq = s.wq.tail ∧ t.lastErr = .ok ∧ ∃ x vals, s.txn = some x ∧ x.op = .write vals .drainWrite

theorem queueView_drainDone (s : State) : queueView (drainDone s) = (s.wq.tail, s.lastErr) := by
  unfold drainDone
  dsimp only
  split <;> rfl

/-- Only the result of an acknowledged drain write touches the queue. -/
theorem applyResult_queue (op : TxnOp) (r : Except Ferr (List U16)) (s : State) :
    queueView (applyResult op r s) = queueView s ∨
    (∃ vals vs, op = .write vals .drainWrite ∧ r = .ok vs) ∧
      queueView (applyResult op r s) = (s.wq.tail, s.lastErr) := by
  match op, r with
  | .read _ .modeRead, .ok _ | .read _ .modeRead, .error _ | .read _ (.partRead _ _), .error _
  | .write _ .modeWrite, .error _ | .write _ .drainWrite, .error _ => exact .inl rfl
  | .read _ (.partRead p base), .ok vals => exact .inl (queueView_partDone p base vals s)
  | .write _ .modeWrite, .ok _ =>
    left
    unfold applyResult
    dsimp only
    split
    · exact queueView_modeComplete s
    · rfl
  | .write _ .drainWrite, .ok _ => exact .inr ⟨⟨_, _, rfl, rfl⟩, queueView_drainDone s⟩

theorem queueView_noteAttempt (op : TxnOp) (s : State) :
    queueView (noteAttempt op s) = queueView s := by
  cases op <;> rfl

theorem queueView_recordResult (c : Ferr) (s : State) :
    queueView (recordResult c s) = (s.wq, c) := by
  unfold recordResult
  dsimp only
  split <;> rfl

/-- After its result is recorded and applied, the end of a transaction leaves the queue alone. -/
theorem queueView_txnEnd {s : State} {x : Txn} (h : s.txn = some x) (r : Except Ferr (List U16)) :
    queueView (txnEnd r s) = queueView (applyResult x.op r
      (noteAttempt x.op (recordResult (codeOf r) { s with txn := none }))) := by
  unfold txnEnd
  rw [h]
  dsimp only
  split
  · exact queueView_doStop _ _
  · exact queueView_continueTurn _ _ _

theorem txnEnd_of_txn_none {s : State} (h : s.txn = none) (r : Except Ferr (List U16)) :
    txnEnd r s = s := by
  unfold txnEnd
  rw [h]

/-- A transaction that ends leaves the queue, unless it is a drain write that succeeded. -/
theorem txnEnd_queue (r : Except Ferr (List U16)) (s : State) :
    (txnEnd r s).wq = s.wq ∨ (∃ vs, r = .ok vs) ∧ DrainAcknowledged s (txnEnd r s) := by
  cases hx : s.txn with
  | none => exact .inl (congrArg State.wq (txnEnd_of_txn_none hx r))
  | some x =>
    have ended := queueView_txnEnd hx r
    have recorded := (queueView_noteAttempt x.op _).trans
      (queueView_recordResult (codeOf r) { s with txn := none })
    obtain ⟨wqRecorded, errRecorded⟩ := Prod.mk_inj.1 recorded
    rcases applyResult_queue x.op r _ with same | ⟨⟨vals, vs, hop, rfl⟩, drained⟩
    · exact .inl (congrArg Prod.fst (ended.trans (same.trans recorded)))
    · obtain ⟨wqEnd, errEnd⟩ := Prod.mk_inj.1 (ended.trans drained)
      exact .inr ⟨⟨vs, rfl⟩, wqEnd.trans (congrArg List.tail wqRecorded),
        errEnd.trans errRecorded, x, vals, hx, hop⟩

theorem txnEnd_error_wq (e : Ferr) (s : State) : (txnEnd (.error e) s).wq = s.wq := by
  rcases txnEnd_queue (.error e) s with same | ⟨⟨_, h⟩, -⟩
  · exact same
  · cases h

theorem txnAnswer_queue (n : Nat) (f : List Byte) (fe : Bool) (s : State) :
    (txnAnswer n f fe s).wq = s.wq ∨ DrainAcknowledged s (txnAnswer n f fe s) := by
  have ended : ∀ r, (txnEnd r s).wq = s.wq ∨ DrainAcknowledged s (txnEnd r s) := fun r =>
    (txnEnd_queue r s).imp_right And.right
  unfold txnAnswer
  split
  · exact .inl rfl
  · split
    · exact ended _
    · split
      · exact ended _
      · split <;> exact ended _

/-! ## The end of a frame -/

theorem snoopReport_wq (c : Ferr) (s : State) : (snoopReport c s).wq = s.wq := by
  cases c <;> rfl

theorem deliverFrame_queue (n : Nat) (f : List Byte) (s : State) :
    (deliverFrame n f s).wq = s.wq ∨
    s.rx.owner = .answer ∧ DrainAcknowledged s (deliverFrame n f s) := by
  unfold deliverFrame
  split
  · exact .inl (snoopReport_wq _ _)
  · exact (txnAnswer_queue n f s.rx.ferr (closeFrame s)).imp_right fun h => ⟨‹_›, h⟩
  · exact .inl rfl

/-- What decodes from a frame is an instruction of its role. -/
theorem frameRole_of_decodeFrame {role : FrameRole} {f : List Byte} {i : Instr}
    (h : decodeFrame role f = .ok i) : frameRole i = some role := by
  cases role with
  | request =>
    change decodeRequest f = _ at h
    unfold decodeRequest at h
    split at h <;> cases h <;> rfl
  | answer =>
    change decodeAnswer f = _ at h
    unfold decodeAnswer at h
    split at h <;> cases h; rfl
  | ack =>
    change decodeAck f = _ at h
    unfold decodeAck at h
    dsimp only at h
    split at h <;> cases h; rfl

/-- A frame's instruction is the end of some frame (R310–R313, R557). -/
theorem exec_of_frameRole {i : Instr} {role : FrameRole} (h : frameRole i = some role) (s : State) :
    ∃ f, exec i s = .next (endFrame f s) := by
  cases i with
  | readRequest | readAnswer | writeRequest | writeAck => exact ⟨_, rfl⟩
  | _ => cases h

theorem frameRole_of_receivedInstr {s : State} {i : Instr} (h : receivedInstr s = some i) :
    ∃ role, frameRole i = some role := by
  unfold receivedInstr at h
  split at h
  · cases h
  · split at h
    · cases h
    · rename_i role _
      refine ⟨role, frameRole_of_decodeFrame (f := s.rx.buf) ?_⟩
      cases hd : decodeFrame role s.rx.buf with
      | error => rw [hd] at h; cases h
      | ok j => rw [hd] at h; cases h; rfl

/-- Decoded or not, the open frame goes to its owner. -/
theorem frameEnd_eq_deliverFrame (s : State) :
    ∃ n f, frameEnd exec s = .next (deliverFrame n f s) := by
  unfold frameEnd
  split
  · rename_i i hi
    obtain ⟨role, hrole⟩ := frameRole_of_receivedInstr hi
    obtain ⟨f, hf⟩ := exec_of_frameRole hrole s
    exact ⟨_, f, hf⟩
  · exact ⟨_, _, rfl⟩

theorem receiveTick_queue {s t : State} (h : receiveTick exec s = .next t) :
    t.wq = s.wq ∨ s.rx.inFrame = true ∧ s.rx.owner = .answer ∧ DrainAcknowledged s t := by
  unfold receiveTick at h
  split at h
  · rename_i hopen
    have inFrame : s.rx.inFrame = true := (Bool.and_eq_true_iff.1 hopen).1
    rw [settleNat_eq] at h
    dsimp only at h
    split at h
    · obtain ⟨n, f, hend⟩ :=
        frameEnd_eq_deliverFrame { s with rx.gap := min (s.rx.gap + 1) Config.rxGapMax }
      cases hend.symm.trans h
      exact (deliverFrame_queue n f _).imp_right fun ⟨own, done⟩ => ⟨inFrame, own, done⟩
    · cases h; exact .inl rfl
  · cases h; exact .inl rfl

/-! ## Ticks -/

theorem countBit_eq (s : State) : countBit s = { s with bitTicks := s.bitTicks + 1 } :=
  settleNat_eq _ _

theorem transmitTick_of_ne_tx {s : State} (h : s.seq ≠ .tx) : transmitTick s = s := by
  unfold transmitTick
  split
  · exact absurd ‹_› h
  all_goals rfl

theorem transmitTick_frame (s : State) :
    (transmitTick s).wq = s.wq ∧ (transmitTick s).rx = s.rx := by
  unfold transmitTick
  split
  · rw [settleNat_eq]
    dsimp only
    split
    · exact ⟨rfl, rfl⟩
    · split <;> exact ⟨rfl, rfl⟩
  all_goals exact ⟨rfl, rfl⟩

/-- While the block sends, no frame is open, so a `tick_bit` that ends an answer finds the sequencer
in WAIT (R555, R559). -/
theorem tickBit_queue {s t : State} (closed : s.seq = .tx → s.rx.inFrame = false)
    (waiting : s.rx.inFrame = true → s.rx.owner = .answer → s.seq = .wait)
    (h : tickBit exec s = .next t) :
    t.wq = s.wq ∨ s.seq = .wait ∧ DrainAcknowledged s t := by
  unfold tickBit at h
  by_cases sending : s.seq = .tx
  · obtain ⟨wqSent, rxSent⟩ := transmitTick_frame (countBit s)
    rw [countBit_eq] at wqSent rxSent h
    rcases receiveTick_queue h with same | ⟨opened, -⟩
    · exact .inl (same.trans wqSent)
    · rw [rxSent] at opened
      exact absurd ((closed sending).symm.trans opened) (by decide)
  · have notSending : (countBit s).seq ≠ .tx := by rwa [countBit_eq]
    rw [transmitTick_of_ne_tx notSending, countBit_eq] at h
    rcases receiveTick_queue h with same | ⟨opened, own, done⟩
    · exact .inl same
    · exact .inr ⟨waiting opened own, done⟩

theorem countMs_wq (s : State) : (countMs s).wq = s.wq := by
  simp [countMs]

theorem turnStart_wq (s : State) : (turnStart s).wq = s.wq :=
  wq_of_queueView (queueView_advance _ s)

theorem runStep_wq (s : State) : (runStep s).wq = s.wq := wq_of_queueView (queueView_runStep s)

theorem offTick_wq (s : State) : (offTick s).wq = s.wq := by
  unfold offTick
  split
  · rw [turnStart_wq, setArb_wq]
  · rfl

theorem listenTick_wq (s : State) : (listenTick s).wq = s.wq := by
  unfold listenTick
  rw [settleNat_eq]
  dsimp only
  split
  · exact turnStart_wq _
  · rfl

theorem guardTick_wq (s : State) : (guardTick s).wq = s.wq := by
  unfold guardTick
  split <;> rfl

theorem waitTick_wq (s : State) : (waitTick s).wq = s.wq := by
  unfold waitTick
  rw [settleNat_eq]
  dsimp only
  split
  · rw [txnEnd_error_wq]
    split <;> rfl
  · rfl

theorem pauseTick_wq (s : State) : (pauseTick s).wq = s.wq := by
  unfold pauseTick
  rw [settleNat_eq]
  dsimp only
  split
  · exact runStep_wq _
  · rfl

theorem tickMs_wq (s : State) : (tickMs s).wq = s.wq := by
  unfold tickMs
  split
  · rw [offTick_wq, countMs_wq]
  · rw [listenTick_wq, countMs_wq]
  · rw [guardTick_wq, countMs_wq]
  · exact countMs_wq s
  · rw [waitTick_wq, countMs_wq]
  · rw [pauseTick_wq, countMs_wq]

/-! ## Characters -/

theorem abortTurn_wq (reason : AbortReason) (s : State) : (abortTurn reason s).wq = s.wq :=
  wq_of_queueView (queueView_abortTurn reason s)

theorem rxStart_wq (s : State) : (rxStart s).wq = s.wq := by
  unfold rxStart
  split
  · rfl
  · dsimp only
    split
    · exact abortTurn_wq _ _
    · rfl

theorem observe_wq (s : State) : (observe s).wq = s.wq := by
  unfold observe
  split
  · rw [setArb_wq]
    split <;> rfl
  · rfl

theorem storeByte_wq (b : Byte) (ferr : Bool) (s : State) : (storeByte b ferr s).wq = s.wq := rfl

theorem openFrame_wq (s : State) : (openFrame s).wq = s.wq := rfl

theorem rxByte_wq (b : Byte) (ferr : Bool) (s : State) : (rxByte b ferr s).wq = s.wq := by
  unfold rxByte
  simp only [apply_ite State.wq, observe_wq, abortTurn_wq, storeByte_wq, openFrame_wq, ite_self]

/-! ## Host accesses -/

theorem stopRequest_wq (r : StopReason) (s : State) : (stopRequest r s).wq = s.wq :=
  wq_of_queueView (queueView_stopRequest r s)

theorem ctrlEn_wq (b : Bool) (s : State) : (ctrlEn b s).wq = s.wq := by
  unfold ctrlEn
  split
  · exact stopRequest_wq .stop _
  · rfl

theorem ctrlReinit_wq (b : Bool) (s : State) : (ctrlReinit b s).wq = s.wq := by
  cases b
  · rfl
  · exact stopRequest_wq .reinit s

theorem ctrlInvalidate_wq (b : Bool) (s : State) : (ctrlInvalidate b s).wq = s.wq := by
  cases b <;> rfl

theorem ctrlRefresh_wq (b : Bool) (s : State) : (ctrlRefresh b s).wq = s.wq := by
  cases b <;> rfl

theorem writeCtrl_wq (v : Word) (s : State) : (writeCtrl v s).wq = s.wq := by
  rw [writeCtrl_eq, ctrlRefresh_wq, ctrlInvalidate_wq, ctrlReinit_wq, ctrlEn_wq]

theorem writeReg_wq (r : HostReg) (v : Word) (s : State) : (writeReg r v s).wq = s.wq := by
  cases r with
  | ctrl => exact writeCtrl_wq v s
  | _ => rfl

/-- Every row of the opcode map is a command (R302). -/
theorem isCommand_of_decodeCommand {w : Word} {i : Instr} (h : decodeCommand w = .ok i) :
    isCommand i = true := by
  have rows : ∀ r ∈ commandRows, isCommand (r.operands w) = true := by
    intro r hr
    simp only [commandRows, List.mem_cons, List.not_mem_nil, or_false] at hr
    rcases hr with rfl | rfl | rfl | rfl | rfl | rfl | rfl | rfl | rfl | rfl | rfl <;> rfl
  unfold decodeCommand at h
  split at h
  · rename_i r hr
    cases h
    exact rows r (List.mem_of_find?_eq_some hr)
  · cases h

theorem reportRequest_wq (r : Except Ferr ParsedRequest) (s : State) :
    (reportRequest r s).wq = s.wq := by
  unfold reportRequest
  split
  · rfl
  · dsimp only
    split <;> rfl

theorem reportAnswer_wq (l : BitVec 9) (r : Except Ferr (List U16)) (s : State) :
    (reportAnswer l r s).wq = s.wq := by
  unfold reportAnswer
  split <;> rfl

/-- A command appends at most one entry, and that is WQ.PUSH (R721). -/
theorem exec_command_queue {i : Instr} (h : isCommand i = true) (s : State) :
    ∃ t, exec i s = .next t ∧ (t.wq = s.wq ∨ ∃ e, t.wq = s.wq ++ [e]) := by
  cases i with
  | nop => exact ⟨_, rfl, .inl (by simp)⟩
  | crcInit => exact ⟨_, rfl, .inl (by simp)⟩
  | crcByte b => exact ⟨_, rfl, .inl (by simp)⟩
  | crcBuf l => exact ⟨_, rfl, .inl (by split <;> simp)⟩
  | bldRead l => exact ⟨_, rfl, .inl (by split <;> simp)⟩
  | bldWrite l => exact ⟨_, rfl, .inl (by split <;> simp)⟩
  | bldAck l => exact ⟨_, rfl, .inl (by split <;> simp)⟩
  | prsReq => exact ⟨_, rfl, .inl (by simp [reportRequest_wq])⟩
  | prsAns l => exact ⟨_, rfl, .inl (by simp [reportAnswer_wq])⟩
  | wqPush l =>
    refine ⟨_, rfl, ?_⟩
    split
    · left; simp
    · split
      · left; simp
      · right; simp
  | modeReq z sub code => exact ⟨_, rfl, .inl (by simp)⟩
  | _ => cases h

theorem issueCommand_queue {w : Word} {s t : State} (h : issueCommand exec w s = .next t) :
    t.wq = s.wq ∨ ∃ e, t.wq = s.wq ++ [e] := by
  unfold issueCommand at h
  dsimp only at h
  split at h
  · rename_i i hi
    obtain ⟨u, hu, queue⟩ :=
      exec_command_queue (isCommand_of_decodeCommand hi) { s with host.cmd := w }
    cases hu.symm.trans h
    exact queue
  · cases h
    left; simp

theorem busWrite_queue {a : BitVec 14} {v : Word} {s t : State}
    (h : busWrite exec a v s = .next t) :
    t.wq = s.wq ∨ hostReg a = some .cmd ∧ ∃ e, t.wq = s.wq ++ [e] := by
  unfold busWrite at h
  split at h
  · cases h; exact .inl rfl
  · rename_i r hr
    split at h
    · rename_i hcmd
      exact (issueCommand_queue h).imp_right fun queue => ⟨hcmd ▸ hr, queue⟩
    · cases h; exact .inl (writeReg_wq r v s)

/-! ## The step -/

theorem nextEvent_snd (s : State) : (nextEvent s).2 = { s with script := s.script.tail } := by
  cases hs : s.script with
  | nil => rw [nextEvent_of_script_nil hs]; cases s; cases hs; rfl
  | cons e rest => rw [nextEvent_of_script_cons hs]; rfl

/-- Settles O58: each event's effect on the queue; at a `tick_bit` the invariant says that an open
answer stands in WAIT. -/
theorem queueChangesOnlyByRule : Obligations.QueueChangesOnlyByRule := by
  intro s t inv h changed
  unfold step at h
  rw [nextEvent_snd] at h
  generalize (nextEvent s).1 = e at h ⊢
  cases e with
  | tickMs => cases h; exact absurd (tickMs_wq _) changed
  | rxStart => cases h; exact absurd (rxStart_wq _) changed
  | rxByte b ferr => cases h; exact absurd (rxByte_wq b ferr _) changed
  | busRead a => cases h; exact absurd rfl changed
  | reset => cases h; exact .inl ⟨rfl, rfl⟩
  | busWrite a v =>
    obtain ⟨hcmd, e, appended⟩ := (busWrite_queue h).resolve_left changed
    exact .inr (.inl ⟨a, v, e, rfl, hcmd, appended⟩)
  | tickBit =>
    have closed : s.seq = .tx → s.rx.inFrame = false := fun sending => by
      obtain ⟨-, -, -, closed⟩ := inv.transaction.sending sending
      exact closed
    have waiting : s.rx.inFrame = true → s.rx.owner = .answer → s.seq = .wait := fun opened =>
      (inv.receiver.answer opened).1
    obtain ⟨waits, done⟩ := (tickBit_queue (s := { s with script := s.script.tail }) closed waiting
      h).resolve_left changed
    exact .inr (.inr ⟨rfl, waits, done⟩)

end Sys2Proof.Proofs.WriteQueue
end

section
/-! PROOFS. The address map (20_memory.md R203–R205, R210): which word each offset selects, range by
range, and which word addresses select nothing. -/

namespace Sys2Proof.Proofs.AddressMap

open Sys2Proof Sys2Proof.Machine

/-! ## Word addresses -/

theorem wordAddress_mod_four (a : BitVec 14) : wordAddress a % 4 = 0 := Nat.mul_mod_left _ 4

theorem wordAddress_ofNat {n : Nat} (hn : n < 2 ^ 14) (aligned : n % 4 = 0) :
    wordAddress (BitVec.ofNat 14 n) = n := by
  rw [wordAddress, BitVec.toNat_ofNat, Nat.mod_eq_of_lt hn]
  omega

/-- R205: bits [1:0] do not take part. -/
theorem wordAddress_clear_low (a : BitVec 14) : wordAddress (a &&& 0x3FFC#14) = wordAddress a := by
  have upper : (a.toNat &&& 0x3FFC) / 2 ^ 2 = a.toNat / 2 ^ 2 := by
    have small : a.toNat / 2 ^ 2 < 2 ^ 12 := by omega
    rw [Nat.and_div_two_pow, show 0x3FFC / 2 ^ 2 = 2 ^ 12 - 1 from rfl,
      Nat.and_two_pow_sub_one_eq_mod, Nat.mod_eq_of_lt small]
  exact congrArg (· * 4) upper

theorem hostReg_clear_low (a : BitVec 14) : hostReg (a &&& 0x3FFC#14) = hostReg a :=
  congrArg mappedAt (wordAddress_clear_low a)

theorem hostReg_ofNat {n : Nat} (hn : n < 2 ^ 14) (aligned : n % 4 = 0) :
    hostReg (BitVec.ofNat 14 n) = mappedAt n :=
  congrArg mappedAt (wordAddress_ofNat hn aligned)

/-! ## The ranges of the map -/

/-- The table of single registers has no gap. -/
theorem registerMap_lookup_ne_none {w : Nat} (hw : w < 0x098) (aligned : w % 4 = 0) :
    registerMap.lookup w ≠ none := by
  have rows : ∀ k < 38, registerMap.lookup (4 * k) ≠ none := by decide
  have := rows (w / 4) (by omega)
  rwa [Nat.mul_div_cancel' (Nat.dvd_of_mod_eq_zero aligned)] at this

theorem mappedAt_hbuf {i : Nat} (hi : i < 256) : mappedAt (0x400 + 4 * i) = some (.hbuf i) := by
  simp (disch := omega) only [mappedAt, if_pos, if_neg, Nat.add_sub_cancel_left,
    Nat.mul_div_cancel_left]

theorem mappedAt_hval {i : Nat} (hi : i < 128) : mappedAt (0x800 + 4 * i) = some (.hval i) := by
  simp (disch := omega) only [mappedAt, if_pos, if_neg, Nat.add_sub_cancel_left,
    Nat.mul_div_cancel_left]

theorem mappedAt_snoopBuf {i : Nat} (hi : i < 256) :
    mappedAt (0xC00 + 4 * i) = some (.snoopBuf i) := by
  simp (disch := omega) only [mappedAt, if_pos, if_neg, Nat.add_sub_cancel_left,
    Nat.mul_div_cancel_left]

theorem mappedAt_vr {i : Nat} (hi : i < 512) : mappedAt (0x1000 + 4 * i) = some (.vr i) := by
  simp (disch := omega) only [mappedAt, if_pos, if_neg, Nat.add_sub_cancel_left,
    Nat.mul_div_cancel_left]

theorem unmapped_iff (w : Nat) : unmapped w = true ↔
    (0x098 ≤ w ∧ w < 0x100) ∨ (0x140 ≤ w ∧ w < 0x400) ∨ (0xA00 ≤ w ∧ w < 0xC00) ∨ 0x1800 ≤ w := by
  simp only [unmapped, Bool.or_eq_true, Bool.and_eq_true, decide_eq_true_eq, or_assoc]

theorem mappedAt_eq_none_iff {w : Nat} (aligned : w % 4 = 0) :
    mappedAt w = none ↔ unmapped w = true := by
  rw [unmapped_iff]
  unfold mappedAt
  split
  · rename_i single
    exact iff_of_false (registerMap_lookup_ne_none single aligned) (by omega)
  · split_ifs <;> simp only [true_iff, false_iff] <;> omega

theorem hostReg_eq_none_iff (a : BitVec 14) :
    hostReg a = none ↔ unmapped (wordAddress a) = true :=
  mappedAt_eq_none_iff (wordAddress_mod_four a)

/-- Settles O3: the registers and the partition table are looked up, each memory is a range of the
map, and the ranges left over are the unmapped ones. -/
theorem addressMapAsTabled : Obligations.AddressMapAsTabled := by
  refine ⟨?registers, ?partitions, fun i hi => ?hbuf, fun i hi => ?hval, fun i hi => ?snoopBuf,
    fun i hi => ?vr, hostReg_eq_none_iff⟩
  case registers => decide
  case partitions => decide
  case hbuf => rw [hostReg_ofNat (by omega) (by omega), mappedAt_hbuf hi]
  case hval => rw [hostReg_ofNat (by omega) (by omega), mappedAt_hval hi]
  case snoopBuf => rw [hostReg_ofNat (by omega) (by omega), mappedAt_snoopBuf hi]
  case vr => rw [hostReg_ofNat (by omega) (by omega), mappedAt_vr hi]

end Sys2Proof.Proofs.AddressMap
end

section
/-! PROOFS. What every access of the host bus does (20_memory.md R204, R205, R211): a read is its
data, an access of an unmapped word is none, a write is always answered, and CMD holds its last
word. -/

namespace Sys2Proof.Proofs.BusAccess

open Sys2Proof Sys2Proof.Machine Sys2Proof.Proofs.HostAccess Sys2Proof.Proofs.AddressMap
open Sys2Proof.Proofs.WriteQueue (isCommand_of_decodeCommand)

/-! ## Reads -/

theorem handle_busRead (a : BitVec 14) (s : State) : handle exec (.busRead a) s =
    .next { s with outLog := s.outLog ++ [.busData (busReadData a s)] } := rfl

theorem busReadData_of_hostReg_none {a : BitVec 14} (h : hostReg a = none) (s : State) :
    busReadData a s = 0#32 := by
  simp only [busReadData, h]

theorem busReadData_clear_low (a : BitVec 14) (s : State) :
    busReadData (a &&& 0x3FFC#14) s = busReadData a s := by
  rw [busReadData, hostReg_clear_low, busReadData]

/-! ## Writes -/

theorem handle_busWrite_of_hostReg_none {a : BitVec 14} (h : hostReg a = none) (v : Word)
    (s : State) : handle exec (.busWrite a v) s = .next s := by
  simp only [handle, busWrite, h]

theorem handle_busWrite_clear_low (a : BitVec 14) (v : Word) (s : State) :
    handle exec (.busWrite (a &&& 0x3FFC#14) v) s = handle exec (.busWrite a v) s := by
  simp only [handle, busWrite, hostReg_clear_low]

theorem handle_busWrite_cmd {a : BitVec 14} (h : hostReg a = some .cmd) (w : Word) (s : State) :
    handle exec (.busWrite a w) s = issueCommand exec w s := by
  simp only [handle, busWrite, h, if_pos]

/-! ## Commands leave CMD alone -/

theorem reportRequest_cmd (r : Except Ferr ParsedRequest) (s : State) :
    (reportRequest r s).host.cmd = s.host.cmd := by
  cases r with
  | error e => rfl
  | ok q => cases q <;> rfl

theorem reportAnswer_cmd (l : BitVec 9) (r : Except Ferr (List U16)) (s : State) :
    (reportAnswer l r s).host.cmd = s.host.cmd := by
  cases r <;> rfl

/-- R705: a command always ends, and its effect does not reach CMD. -/
theorem exec_command_cmd {i : Instr} (h : isCommand i = true) (s : State) :
    ∃ t, exec i s = .next t ∧ t.host.cmd = s.host.cmd := by
  cases i with
  | nop => exact ⟨_, rfl, by simp⟩
  | crcInit => exact ⟨_, rfl, by simp⟩
  | crcByte b => exact ⟨_, rfl, by simp⟩
  | crcBuf l => exact ⟨_, rfl, by split <;> simp⟩
  | bldRead l => exact ⟨_, rfl, by split <;> simp⟩
  | bldWrite l => exact ⟨_, rfl, by split <;> simp⟩
  | bldAck l => exact ⟨_, rfl, by split <;> simp⟩
  | prsReq => exact ⟨_, rfl, by simp [reportRequest_cmd]⟩
  | prsAns l => exact ⟨_, rfl, by simp [reportAnswer_cmd]⟩
  | wqPush l =>
    refine ⟨_, rfl, ?_⟩
    split
    · simp
    · split <;> simp
  | modeReq z sub code => exact ⟨_, rfl, by simp⟩
  | _ => cases h

/-- R303, R705: a word written to CMD is answered, legal or not, and stays there. -/
theorem issueCommand_cmd (w : Word) (s : State) :
    ∃ t, issueCommand exec w s = .next t ∧ t.host.cmd = w := by
  unfold issueCommand
  cases hw : decodeCommand w with
  | ok i => exact exec_command_cmd (isCommand_of_decodeCommand hw) { s with host.cmd := w }
  | error e => exact ⟨_, rfl, by simp⟩

/-- R204: no write to the bus is refused. -/
theorem handle_busWrite_next (a : BitVec 14) (v : Word) (s : State) :
    ∃ t, handle exec (.busWrite a v) s = .next t := by
  cases ha : hostReg a with
  | none => exact ⟨s, handle_busWrite_of_hostReg_none ha v s⟩
  | some r =>
    by_cases hcmd : r = .cmd
    · obtain ⟨t, ht, -⟩ := issueCommand_cmd v s
      exact ⟨t, (handle_busWrite_cmd (hcmd ▸ ha) v s).trans ht⟩
    · exact ⟨_, handle_busWrite_of_hostReg ha hcmd v s⟩

/-! ## The statements -/

/-- Settles O4: an unmapped word selects nothing, every access is answered, and the word address
leaves bits [1:0] out. -/
theorem unmappedAndUnalignedAccesses : Obligations.UnmappedAndUnalignedAccesses := by
  refine ⟨fun a v s ha => ?unmapped, fun a v s => ⟨⟨_, rfl⟩, handle_busWrite_next a v s⟩,
    fun a v s => ⟨?read, (handle_busWrite_clear_low a v s).symm⟩⟩
  case unmapped =>
    have nothing : hostReg a = none := (hostReg_eq_none_iff a).2 ha
    rw [handle_busRead, busReadData_of_hostReg_none nothing]
    exact ⟨rfl, handle_busWrite_of_hostReg_none nothing v s⟩
  case read => rw [handle_busRead, handle_busRead, busReadData_clear_low]

/-- Settles O5: a read only gives its data; a write to CMD stores the word, and the command it
issues leaves CMD alone. -/
theorem readsChangeNothing : Obligations.ReadsChangeNothing := by
  refine ⟨handle_busRead, fun w s => ?_⟩
  have cmd : hostReg 0x01C#14 = some .cmd := rfl
  obtain ⟨t, ht, kept⟩ := issueCommand_cmd w s
  exact ⟨t, (handle_busWrite_cmd cmd w s).trans ht, (busReadData_of_hostReg cmd t).trans kept⟩

end Sys2Proof.Proofs.BusAccess
end

section
/-! PROOFS. The registers and memory words that only store what is written (20_memory.md R212,
70_reset_and_hazards.md R904): what a write to each leaves unchanged. -/

namespace Sys2Proof.Proofs.StoringWrites

open Sys2Proof Sys2Proof.Machine Sys2Proof.Proofs.HostAccess

/-! ## Configuration registers -/

theorem ne_cmd_of_isSetting {r : HostReg} (h : r.isSetting = true) : r ≠ .cmd := by
  rintro rfl; cases h

theorem writeReg_of_isSetting {r : HostReg} (h : r.isSetting = true) (hirq : r ≠ .irqEnable)
    (v : Word) (s : State) :
    writeReg r v s = { s with cfg := (writeReg r v s).cfg } := by
  cases r with
  | slaveAddr | modeCfg0 | modeCfg1 | modeEn | tQuiet | tTxn | tDrain | tPause | tIdle | tListen
  | cyclePeriod | tGap | ptRange | ptBase => rfl
  | irqEnable => exact absurd rfl hirq
  | _ => cases h

/-- A register outside the partition table has a field of its own: every other word of the map, a
register or a memory word, reads as before. -/
theorem readReg_writeReg_single {r : HostReg} (h : r.isSetting = true)
    (hrange : ∀ p, r ≠ .ptRange p) (hbase : ∀ p, r ≠ .ptBase p) (q : HostReg) (v : Word)
    (s : State) : readReg q (writeReg r v s) =
      if q = r then readReg r (writeReg r v s) else readReg q s := by
  cases r with
  | irqEnable | slaveAddr | modeCfg0 | modeCfg1 | modeEn | tQuiet | tTxn | tDrain | tPause | tIdle
  | tListen | cyclePeriod | tGap => cases q <;> rfl
  | ptRange p => exact absurd rfl (hrange p)
  | ptBase p => exact absurd rfl (hbase p)
  | _ => cases h

/-- An entry of the partition table is read by its PT_RANGE and its PT_BASE only: a new entry that
keeps START and COUNT leaves every configuration register but PT_BASE as it was. -/
theorem readReg_set_entry {q : HostReg} {p : Fin 8} {e : Partition} {s : State}
    (hq : q.isSetting = true)
    (hrange : q = .ptRange p → e.start = s.cfg.pt[p].start ∧ e.count = s.cfg.pt[p].count)
    (hbase : q ≠ .ptBase p) :
    readReg q { s with cfg.pt := s.cfg.pt.set p e } = readReg q s := by
  obtain ⟨entry, others⟩ := getElem_pt_set s.cfg.pt p e
  cases q with
  | ptRange k =>
    by_cases hk : k = p
    · subst hk
      obtain ⟨start, count⟩ := hrange rfl
      simp only [readReg, ptRangeWord, entry, start, count]
    · simp only [readReg, ptRangeWord, others k hk]
  | ptBase k =>
    have hk : k ≠ p := fun hk => hbase (hk ▸ rfl)
    simp only [readReg, ptBaseWord, others k hk]
  | irqEnable | slaveAddr | modeCfg0 | modeCfg1 | modeEn | tQuiet | tTxn | tDrain | tPause | tIdle
  | tListen | cyclePeriod | tGap => rfl
  | _ => cases hq

/-- R904: a configuration register reads as before a write to another, except PT_BASE[p] after a
write to PT_RANGE[p]. -/
theorem readReg_writeReg_other {r q : HostReg} (hr : r.isSetting = true) (hq : q.isSetting = true)
    (hne : q ≠ r) (hpt : ∀ p, r = .ptRange p → q ≠ .ptBase p) (v : Word) (s : State) :
    readReg q (writeReg r v s) = readReg q s := by
  cases r with
  | ptRange p => exact readReg_set_entry hq (fun h => absurd h hne) (hpt p rfl)
  | ptBase p => exact readReg_set_entry hq (fun _ => ⟨rfl, rfl⟩) hne
  | _ => exact (readReg_writeReg_single hr nofun nofun q v s).trans (if_neg hne)

theorem writeReg_ptRange_entry (p : Fin 8) (v : Word) (s : State) :
    (writeReg (.ptRange p) v s).cfg.pt[p] = (s.cfg.pt[p]).withRange v := by
  obtain ⟨entry, -⟩ := getElem_pt_set s.cfg.pt p ((s.cfg.pt[p]).withRange v)
  exact entry

/-! ## Memory words -/

theorem memRead_memWrite {α : Type} (m : Memory α) (i j : Nat) (v : α) :
    memRead (memWrite m i v) j = if j = i then some v else memRead m j := by
  split
  · rename_i same
    rw [same, memRead_memWrite_self]
  · rename_i other
    exact memRead_memWrite_other m v other

theorem hbufAt_writeReg_hbuf (i j : Nat) (v : Word) (s : State) :
    hbufAt (writeReg (.hbuf i) v s) j = if j = i then v.extractLsb' 0 8 else hbufAt s j := by
  simp only [hbufAt, writeReg, memRead_memWrite]
  split <;> rfl

theorem hvalAt_writeReg_hval (i j : Nat) (v : Word) (s : State) :
    hvalAt (writeReg (.hval i) v s) j = if j = i then v.extractLsb' 0 16 else hvalAt s j := by
  simp only [hvalAt, writeReg, memRead_memWrite]
  split <;> rfl

/-- Settles O7: the write is the register's own, whose frame the lemmas above give. -/
theorem hostWritesStayInPlace : Obligations.HostWritesStayInPlace := by
  refine ⟨fun a r v s ha hr => ?settings, fun a v s => ?host, fun a i v s ha => ?hbuf,
    fun a i v s ha => ?hval⟩
  case settings =>
    refine ⟨_, handle_busWrite_of_hostReg ha (ne_cmd_of_isSetting hr) v s, ?_, fun q hq hne =>
      ⟨?_, fun hpt => readReg_writeReg_other hr hq hne hpt v s⟩⟩
    · split
      · rename_i irq
        rw [irq, writeReg]
      · rename_i config
        exact writeReg_of_isSetting hr config v s
    · rintro p rfl -
      rw [writeReg_ptRange_entry]
      exact ⟨rfl, rfl⟩
  case host =>
    exact ⟨fun ha => handle_busWrite_of_hostReg ha nofun v s,
      fun ha => handle_busWrite_of_hostReg ha nofun v s,
      fun ha => handle_busWrite_of_hostReg ha nofun v s⟩
  case hbuf =>
    exact ⟨_, handle_busWrite_of_hostReg ha nofun v s, rfl, fun j => hbufAt_writeReg_hbuf i j v s⟩
  case hval =>
    exact ⟨_, handle_busWrite_of_hostReg ha nofun v s, rfl, fun j => hvalAt_writeReg_hval i j v s⟩

end Sys2Proof.Proofs.StoringWrites
end

section
/-! PROOFS. The illegal command words (30_encoding.md R301–R303, 46_host_commands.md R730): a row of
the opcode map compared field by field, and what the write of an illegal word to CMD changes. -/

namespace Sys2Proof.Proofs.IllegalWords

open Sys2Proof Sys2Proof.Machine Sys2Proof.Proofs.HostAccess Sys2Proof.Proofs.BusAccess

/-! ## A word and its fields -/

/-- Bits [31:25] of a command word, which no opcode uses (R301). -/
def highField (w : Word) : BitVec 7 := w.extractLsb' 25 7

theorem append_fields (w : Word) : highField w ++ lField w ++ bField w ++ opField w = w := by
  simp only [highField, lField, bField, opField,
    BitVec.extractLsb'_append_extractLsb'_eq_extractLsb', BitVec.extractLsb'_eq_self]

theorem eq_iff_fields (v w : Word) : v = w ↔
    highField v = highField w ∧ lField v = lField w ∧ bField v = bField w ∧
      opField v = opField w := by
  refine ⟨by rintro rfl; exact ⟨rfl, rfl, rfl, rfl⟩, fun ⟨high, l, b, op⟩ => ?_⟩
  rw [← append_fields v, high, l, b, op, append_fields]

theorem and_eq_iff_fields (w mask pattern : Word) : w &&& mask = pattern ↔
    highField w &&& highField mask = highField pattern ∧
    lField w &&& lField mask = lField pattern ∧
    bField w &&& bField mask = bField pattern ∧
    opField w &&& opField mask = opField pattern := by
  simp only [eq_iff_fields (w &&& mask), highField, lField, bField, opField,
    BitVec.extractLsb'_and]

/-! ## Rows of the opcode map -/

/-- R302: every row wants its opcode, bits [31:25] at 0, and the bits of L and B under its mask at
0. -/
theorem and_row_mask_eq_pattern_iff {r : CommandRow} (hr : r ∈ commandRows) (w : Word) :
    w &&& r.mask = r.pattern ↔
      highField w = 0#7 ∧ opField w = opField r.pattern ∧
        lField w &&& lField r.mask = 0#9 ∧ bField w &&& bField r.mask = 0#8 := by
  have rows : ∀ r ∈ commandRows,
      (highField r.mask = BitVec.allOnes 7 ∧ opField r.mask = BitVec.allOnes 8) ∧
      highField r.pattern = 0#7 ∧ lField r.pattern = 0#9 ∧ bField r.pattern = 0#8 := by
    simp only [commandRows, List.forall_mem_cons]; decide
  obtain ⟨⟨highMask, opMask⟩, high, l, b⟩ := rows r hr
  rw [and_eq_iff_fields, highMask, opMask, high, l, b, BitVec.and_allOnes, BitVec.and_allOnes]
  tauto

/-- The opcodes R302 assigns. -/
def opcodes : List Byte :=
  [0x00#8, 0x01#8, 0x02#8, 0x03#8, 0x10#8, 0x11#8, 0x12#8, 0x20#8, 0x21#8, 0x30#8, 0x31#8]

/-- R303 for the fields OP, B and L: the opcode is assigned, and a field it does not use is 0. -/
def FieldsLegal (op b : Byte) (l : BitVec 9) : Prop :=
  op ∈ opcodes ∧ (op ≠ 0x02#8 → op ≠ 0x31#8 → b = 0#8) ∧
    (op ∈ [0x00#8, 0x01#8, 0x02#8, 0x20#8] → l = 0#9) ∧
    (op = 0x31#8 → l.extractLsb' 2 7 = 0#7)

theorem illegalWord_eq_false_iff (w : Word) : illegalWord w = false ↔
    highField w = 0#7 ∧ FieldsLegal (opField w) (bField w) (lField w) := by
  simp only [illegalWord, FieldsLegal, opcodes, highField, lField, bField, opField,
    Bool.or_eq_false_iff, Bool.not_eq_false', List.contains_iff_mem, bne_eq_false_iff_eq,
    Bool.and_eq_false_imp, Bool.and_eq_true, bne_iff_ne, beq_iff_eq, and_imp, and_assoc]
  exact and_left_comm

/-- The L mask of MODE.REQ keeps L[8:2]. -/
theorem and_modeReq_mask_eq_zero_iff (l : BitVec 9) :
    l &&& 0x1FC#9 = 0#9 ↔ l.extractLsb' 2 7 = 0#7 := by
  revert l; decide +kernel

theorem fieldsLegal_iff_exists_row (op b : Byte) (l : BitVec 9) : FieldsLegal op b l ↔
    ∃ r ∈ commandRows,
      op = opField r.pattern ∧ l &&& lField r.mask = 0#9 ∧ b &&& bField r.mask = 0#8 := by
  have wholeB : b &&& 255#8 = b := BitVec.and_allOnes
  have wholeL : l &&& 511#9 = l := BitVec.and_allOnes
  simp only [FieldsLegal, commandRows, List.exists_mem_cons_iff, List.not_mem_nil, false_and,
    exists_false, or_false, opField, lField, bField, BitVec.reduceExtractLsb']
  by_cases assigned : op ∈ opcodes
  · simp only [opcodes, List.mem_cons, List.not_mem_nil, or_false] at assigned
    rcases assigned with rfl | rfl | rfl | rfl | rfl | rfl | rfl | rfl | rfl | rfl | rfl <;>
      simp [opcodes, wholeB, wholeL, and_modeReq_mask_eq_zero_iff, and_comm]
  · have unassigned := assigned
    simp only [opcodes, List.mem_cons, List.not_mem_nil, or_false, not_or] at unassigned
    simp [assigned, unassigned]

theorem illegalWord_eq_false_iff_exists_row (w : Word) : illegalWord w = false ↔
    ∃ r ∈ commandRows, w &&& r.mask = r.pattern := by
  rw [illegalWord_eq_false_iff, fieldsLegal_iff_exists_row]
  constructor
  · rintro ⟨high, r, hr, fields⟩
    exact ⟨r, hr, (and_row_mask_eq_pattern_iff hr w).2 ⟨high, fields⟩⟩
  · rintro ⟨r, hr, hit⟩
    obtain ⟨high, fields⟩ := (and_row_mask_eq_pattern_iff hr w).1 hit
    exact ⟨high, r, hr, fields⟩

/-! ## Rejection -/

theorem exists_decodeCommand_error_iff (w : Word) : (∃ e, decodeCommand w = .error e) ↔
    ¬ ∃ r ∈ commandRows, w &&& r.mask = r.pattern := by
  unfold decodeCommand
  cases found : commandRows.find? (fun r => w &&& r.mask == r.pattern) with
  | some r =>
    have hit : w &&& r.mask = r.pattern := by simpa using List.find?_some found
    exact iff_of_false nofun (not_not_intro ⟨r, List.mem_of_find?_eq_some found, hit⟩)
  | none =>
    exact iff_of_true ⟨_, rfl⟩ fun ⟨r, hr, hit⟩ =>
      List.find?_eq_none.1 found r hr (beq_iff_eq.2 hit)

theorem decodeCommand_error_iff_illegalWord (w : Word) :
    (∃ e, decodeCommand w = .error e) ↔ illegalWord w = true := by
  rw [exists_decodeCommand_error_iff, ← illegalWord_eq_false_iff_exists_row, Bool.not_eq_false]

/-- R730: a rejected word is recorded and reported by `finish`, and nothing runs. -/
theorem issueCommand_of_decodeCommand_error {w : Word} {e : DecodeError}
    (h : decodeCommand w = .error e) (s : State) :
    issueCommand exec w s = .next { s with
      host := { s.host with cmd := w, cerr := .illegalOp, ferr := .ok }
      irqStatus := s.irqStatus ||| 0x100#9 } := by
  simp only [issueCommand, h]
  rfl

theorem cmdStatusWord_of_illegalOp {s : State} (cerr : s.host.cerr = .illegalOp)
    (ferr : s.host.ferr = .ok) : cmdStatusWord s = 1#32 := by
  rw [cmdStatusWord, cerr, ferr]
  decide

/-- Settles O20: a word is rejected when no row of the opcode map matches it, and the rows compare
the fields R303 names; a rejected word only reaches `finish`. -/
theorem illegalWordsOnlyReport : Obligations.IllegalWordsOnlyReport := by
  refine ⟨decodeCommand_error_iff_illegalWord, fun w s illegal => ?_⟩
  obtain ⟨e, rejected⟩ := (decodeCommand_error_iff_illegalWord w).2 illegal
  have cmd : hostReg 0x01C#14 = some .cmd := rfl
  have status : hostReg 0x020#14 = some .cmdStatus := rfl
  refine ⟨_, ?next, busReadData_of_hostReg cmd _,
    (busReadData_of_hostReg status _).trans (cmdStatusWord_of_illegalOp rfl rfl), rfl⟩
  case next => rw [handle_busWrite_cmd cmd, issueCommand_of_decodeCommand_error rejected]

end Sys2Proof.Proofs.IllegalWords
end

section
/-! PROOFS. The checksum (40_crc.md R404–R407): a bit step is linear and injective, the eight bit
steps of a byte split into a shift and a table entry, and the statements of that family. -/

namespace Sys2Proof.Proofs.Checksum

open Sys2Proof Sys2Proof.Machine Sys2Proof.Proofs.HostAccess

/-! ## Bit steps: linear with kernel 0, hence injective -/

@[simp] theorem crcBit_zero : crcBit 0#16 = 0#16 := rfl

/-- A step that shifts out a 1 sets bit 15, the top bit of 0xA001; a step that shifts out a 0 only
shifts. -/
theorem eq_zero_of_crcBit_eq_zero {a : U16} (h : crcBit a = 0#16) : a = 0#16 := by
  unfold crcBit at h
  split at h
  · have top : ((a >>> 1) ^^^ 0xA001#16).getLsbD 15 = true := by simp
    rw [h] at top
    exact absurd top (by decide)
  · next even =>
    ext i hlt
    cases i with
    | zero => simpa using even
    | succ i =>
      have bit := congrArg (·.getLsbD i) h
      simpa [Nat.add_comm 1 i, BitVec.getLsbD_eq_getElem hlt] using bit

theorem crcBit_injective : Function.Injective crcBit := by
  intro a b h
  have difference : crcBit (a ^^^ b) = 0#16 := by rw [crcBit_xor, h, BitVec.xor_self]
  exact BitVec.xor_eq_zero_iff.1 (eq_zero_of_crcBit_eq_zero difference)

theorem crcBits_injective (n : Nat) : Function.Injective (crcBits n) := by
  induction n with
  | zero => exact fun _ _ h => h
  | succ n ih => exact fun a b h => crcBit_injective (ih (by simpa using h))

theorem crcBits_xor (n : Nat) (a b : U16) : crcBits n (a ^^^ b) = crcBits n a ^^^ crcBits n b := by
  induction n generalizing a b with
  | zero => rfl
  | succ n ih => simp only [crcBits_succ, crcBit_xor, ih]

@[simp] theorem crcBits_of_zero (n : Nat) : crcBits n 0#16 = 0#16 := by
  induction n with
  | zero => rfl
  | succ n ih => simpa using ih

/-- Steps that shift out only zeros only shift. -/
theorem crcBits_of_low_bits_zero {n : Nat} {a : U16} (h : ∀ i < n, a.getLsbD i = false) :
    crcBits n a = a >>> n := by
  induction n generalizing a with
  | zero => simp
  | succ n ih =>
    have first : crcBit a = a >>> 1 := by
      rw [crcBit, h 0 n.succ_pos, if_neg Bool.false_ne_true]
    have rest : ∀ i < n, (a >>> 1).getLsbD i = false := fun i hlt => by
      simpa using h (1 + i) (by omega)
    rw [crcBits_succ, first, ih rest, ← BitVec.shiftRight_add, Nat.add_comm]

/-! ## The bytes of an accumulator -/

theorem setWidth_eq_be16 (b : Byte) : b.setWidth 16 = be16 0#8 b :=
  BitVec.setWidth_eq_append (by decide)

theorem ushiftRight_eight (v : U16) : v >>> 8 = be16 0#8 (hi v) :=
  BitVec.ushiftRight_eq_extractLsb'_of_lt (by decide)

theorem be16_xor (a b c d : Byte) : be16 a b ^^^ be16 c d = be16 (a ^^^ c) (b ^^^ d) :=
  BitVec.xor_append

/-- A byte enters the low byte of the accumulator (R400). -/
theorem xor_setWidth_eq_be16 (acc : U16) (b : Byte) :
    acc ^^^ b.setWidth 16 = be16 (hi acc) (lo acc ^^^ b) := by
  calc acc ^^^ b.setWidth 16 = be16 (hi acc) (lo acc) ^^^ be16 0#8 b := by
        rw [be16_hi_lo, setWidth_eq_be16]
    _ = be16 (hi acc) (lo acc ^^^ b) := by rw [be16_xor, BitVec.xor_zero]

/-! ## Byte steps -/

theorem crcStep_injective_acc (b : Byte) : Function.Injective (crcStep · b) := fun _ _ h =>
  (BitVec.xor_left_inj _).1 (crcBits_injective 8 h)

theorem crcStep_injective_byte (acc : U16) : Function.Injective (crcStep acc) := by
  intro b c h
  have extended : b.setWidth 16 = c.setWidth 16 :=
    (BitVec.xor_right_inj acc).1 (crcBits_injective 8 h)
  rw [setWidth_eq_be16, setWidth_eq_be16] at extended
  exact (be16_inj extended).2

theorem crcFrom_injective (l : List Byte) : Function.Injective (crcFrom · l) := by
  induction l with
  | nil => exact fun _ _ h => h
  | cons b l ih => exact fun x y h => crcStep_injective_acc b (ih (by simpa using h))

/-- The high byte is shifted down unchanged, and the low byte leaves its table entry. -/
theorem crcBits_eight_be16 (a b : Byte) : crcBits 8 (be16 a b) = be16 0#8 a ^^^ crcTable b := by
  have high : crcBits 8 (be16 a 0#8) = be16 0#8 a := by
    have low_zero : ∀ i < 8, (be16 a 0#8).getLsbD i = false := fun i hlt =>
      (getLsbD_append_of_lt hlt).trans BitVec.getLsbD_zero
    rw [crcBits_of_low_bits_zero low_zero, ushiftRight_eight, hi_be16]
  have low : crcBits 8 (be16 0#8 b) = crcTable b := by
    rw [crcTable, crcStep, BitVec.zero_xor, setWidth_eq_be16]
  have bytes : be16 a b = be16 a 0#8 ^^^ be16 0#8 b := by
    rw [be16_xor, BitVec.xor_zero, BitVec.zero_xor]
  rw [bytes, crcBits_xor, high, low]

/-- R404: one byte by the table. -/
theorem crcTableStep_eq_crcStep : crcTableStep = crcStep := by
  funext acc b
  rw [crcTableStep, crcStep, xor_setWidth_eq_be16, crcBits_eight_be16, ushiftRight_eight]

theorem crc16Table_eq_crc16 (l : List Byte) : crc16Table l = crc16 l := by
  rw [crc16Table, crcTableStep_eq_crcStep, crc16, crcFrom_eq_foldl]

theorem crcTable_zero : crcTable 0#8 = 0#16 := crcBits_of_zero 8

theorem crcStep_lo (acc : U16) : crcStep acc (lo acc) = be16 0#8 (hi acc) := by
  rw [← crcTableStep_eq_crcStep, crcTableStep, BitVec.xor_self, crcTable_zero, BitVec.xor_zero,
    ushiftRight_eight]

theorem crcStep_be16_zero_self (b : Byte) : crcStep (be16 0#8 b) b = 0#16 := by
  rw [crcStep, setWidth_eq_be16, BitVec.xor_self, crcBits_of_zero]

/-- An accumulator that takes in its own two bytes is cleared. -/
theorem crcFrom_own_bytes (acc : U16) : crcFrom acc [lo acc, hi acc] = 0#16 := by
  simp only [crcFrom_cons, crcFrom_nil, crcStep_lo, crcStep_be16_zero_self]

theorem crc16_append_own_bytes (m rest : List Byte) :
    crc16 (m ++ [lo (crc16 m), hi (crc16 m)] ++ rest) = crcFrom 0#16 rest := by
  rw [crc16, crcFrom_append, crcFrom_append]
  exact congrArg (crcFrom · rest) (crcFrom_own_bytes (crc16 m))

theorem crcFrom_zero_pad : crcFrom 0#16 [0x00#8] = 0#16 := by decide

/-! ## Another byte gives another checksum -/

/-- Inverting a bit of a byte changes it. -/
theorem xor_bit_ne (b : Byte) {j : Nat} (hj : j < 8) : b ^^^ (1#8 <<< j) ≠ b := by
  intro h
  have bit := congrArg (·.getLsbD j) h
  simp [hj] at bit

/-- R406: another byte at one place gives another checksum. -/
theorem crcFrom_set_ne (acc : U16) {l : List Byte} {i : Nat} (h : i < l.length) {b : Byte}
    (hb : b ≠ l[i]) : crcFrom acc (l.set i b) ≠ crcFrom acc l := by
  induction l generalizing acc i with
  | nil => exact absurd h (Nat.not_lt_zero i)
  | cons c l ih =>
    cases i with
    | zero =>
      intro same
      simp only [List.set_cons_zero, crcFrom_cons] at same
      exact hb (crcStep_injective_byte acc (crcFrom_injective l same))
    | succ i =>
      simp only [List.set_cons_succ, crcFrom_cons]
      exact ih _ (Nat.lt_of_succ_lt_succ h) hb

/-! ## The statements -/

/-- Settles O13: the accumulator is its high byte, which is shifted down, and its low byte, which
with the input byte picks the table entry. -/
theorem crcTableFormAgrees : Obligations.CrcTableFormAgrees := by
  refine ⟨fun acc b => ?step, crc16Table_eq_crc16, ?entries⟩
  case step =>
    have index : (acc ^^^ b.setWidth 16).extractLsb' 0 8 = lo acc ^^^ b :=
      (congrArg lo (xor_setWidth_eq_be16 acc b)).trans (lo_be16 _ _)
    rw [index]
    exact (congrFun₂ crcTableStep_eq_crcStep acc b).symm
  case entries => decide

/-- Settles O14: the checksum's own bytes clear the accumulator, and the pad keeps it cleared. -/
theorem crcResidueIsZero : Obligations.CrcResidueIsZero := by
  refine ⟨fun m => ⟨?bare, ?padded⟩, fun a st c => ?request⟩
  case bare => simpa using crc16_append_own_bytes m []
  case padded =>
    have padded := crc16_append_own_bytes m [0x00#8]
    rwa [crcFrom_zero_pad, List.append_assoc] at padded
  case request =>
    rw [buildReadRequest, framed, crcBytes_eq, crc16_append_own_bytes, crcFrom_zero_pad]

/-- Settles O15: the byte steps are injective in the byte and in the accumulator, so the changed
byte changes the accumulator and the bytes after it keep the two apart. -/
theorem crcDetectsSingleBit : Obligations.CrcDetectsSingleBit := by
  intro m i j inside hj
  have changed : byteAt m i ^^^ (1#8 <<< j) ≠ m[i] := by
    rw [byteAt, List.getD_eq_getElem m 0 inside]
    exact xor_bit_ne m[i] hj
  exact crcFrom_set_ne crcInitial inside changed

/-- Settles O12: the bit form is evaluated at each row; the table form and the bytes on the wire
follow for every list. -/
theorem crcReferenceValues : Obligations.CrcReferenceValues := by
  intro p hp
  have value : crc16 p.1 = p.2 := by
    revert p
    decide
  exact ⟨value, (crc16Table_eq_crc16 p.1).trans value, by rw [crcBytes_eq, value]⟩

end Sys2Proof.Proofs.Checksum
end

section
/-! PROOFS. The frame encoder (41_frame_encoder.md R451–R455): the length of each built frame, the
head a write request shares with its ack, and the statement of that family. -/

namespace Sys2Proof.Proofs.FrameEncoder

open Sys2Proof Sys2Proof.Machine

/-! ## Lengths -/

/-- 6 bytes of head, the checksum and the pad. -/
@[simp] theorem buildReadRequest_length (a : Byte) (st c : U16) :
    (buildReadRequest a st c).length = 9 := by
  rw [buildReadRequest, framed_length, readRequestHead_length, List.length_singleton]

/-- 7 bytes of head, two for each value, the checksum and the pad. -/
@[simp] theorem buildWriteRequest_length (a : Byte) (st : U16) (vals : List U16) :
    (buildWriteRequest a st vals).length = 10 + 2 * vals.length := by
  rw [buildWriteRequest, framed_length, List.length_append, writeRequestHead_length,
    valueBytes_length, List.length_singleton]
  omega

/-- 6 bytes of head and the checksum, with no pad. -/
@[simp] theorem ackFrame_length (a : Byte) (st : U16) (n : Byte) :
    (ackFrame a st n).length = 8 := by
  rw [ackFrame, framed_length, ackHead_length, List.length_nil]

/-! ## The ack as the re-framed request head -/

theorem ackFrame_eq (a : Byte) (st : U16) (n : Byte) :
    ackFrame a st n =
      ackHead a st n ++ [lo (crc16 (ackHead a st n)), hi (crc16 (ackHead a st n))] := by
  rw [ackFrame, framed, crcBytes_eq, List.append_nil]

/-- A write request's head is its ack's head and the byte count. -/
theorem writeRequestHead_eq_ackHead_append (a : Byte) (st : U16) (n : Nat) :
    writeRequestHead a st n = ackHead a st (BitVec.ofNat 8 n) ++ [BitVec.ofNat 8 (2 * n)] := rfl

theorem buildWriteRequest_take_six (a : Byte) (st : U16) (vals : List U16) :
    (buildWriteRequest a st vals).take 6 = ackHead a st (BitVec.ofNat 8 vals.length) := by
  rw [buildWriteRequest, framed, writeRequestHead_eq_ackHead_append]
  simp only [List.append_assoc]
  exact List.take_left' (ackHead_length ..)

/-! ## The statement -/

/-- Settles O16: the lengths add up from the parts of a frame; the head of the ack is the start of
the head of the write request. -/
theorem builtFrameShapes : Obligations.BuiltFrameShapes := by
  refine ⟨buildReadRequest_length, fun a st vals nonempty fits => ?request, ackFrame_length,
    fun a st vals _ => ⟨ackFrame_eq a st _, buildWriteRequest_take_six a st vals⟩⟩
  case request =>
    have length := buildWriteRequest_length a st vals
    exact ⟨length, by omega, by omega⟩

end Sys2Proof.Proofs.FrameEncoder
end

section
/-! PROOFS. The frame decoder (42_frame_decoder.md R501–R517): each check of the parsers with the code
it gives, what an inverted bit does to the bytes and the checksum of a frame, and the statements of
that family. -/

namespace Sys2Proof.Proofs.FrameDecoder

open Sys2Proof Sys2Proof.Machine Sys2Proof.Proofs.Checksum Sys2Proof.Proofs.FrameEncoder

section Checks

variable {n : Nat} {f : List Byte}

/-! ## The checks of parseSlaveRequest, in order (R501) -/

theorem parseSlaveRequest_of_read (lower : 8 ≤ n) (upper : n ≤ 256)
    (func : byteAt f 1 = 0x03#8) : parseSlaveRequest n f = parseReadRequest f := by
  rw [parseSlaveRequest, if_neg (by simp; omega), if_pos func]

theorem parseSlaveRequest_of_write (lower : 8 ≤ n) (upper : n ≤ 256)
    (func : byteAt f 1 = 0x10#8) : parseSlaveRequest n f = parseWriteRequest n f := by
  rw [parseSlaveRequest, if_neg (by simp; omega), if_neg (by rw [func]; decide), if_pos func]

theorem parseSlaveRequest_feFunc (lower : 8 ≤ n) (upper : n ≤ 256)
    (not_read : byteAt f 1 ≠ 0x03#8) (not_write : byteAt f 1 ≠ 0x10#8) :
    parseSlaveRequest n f = .error .feFunc := by
  rw [parseSlaveRequest, if_neg (by simp; omega), if_neg not_read, if_neg not_write]

theorem parseReadRequest_feCrc (crc : crc16 (f.take 6) ≠ le16 (byteAt f 6) (byteAt f 7)) :
    parseReadRequest f = .error .feCrc := if_pos crc

theorem parseWriteRequest_piBcount
    (bcount : (byteAt f 6).toNat ≠ 2 * (be16 (byteAt f 4) (byteAt f 5)).toNat) :
    parseWriteRequest n f = .error .piBcount := if_pos bcount

/-- Past the byte count, a frame as long as a padded request has its pad and its checksum checked. -/
theorem parseWriteRequest_padded {cnt : Nat} (count : (be16 (byteAt f 4) (byteAt f 5)).toNat = cnt)
    (bytes : (byteAt f 6).toNat = 2 * cnt) : parseWriteRequest (10 + 2 * cnt) f =
      if byteAt f (9 + 2 * cnt) ≠ 0x00#8 then .error .feTotlen
      else if crc16 (f.take (7 + 2 * cnt)) ≠
          le16 (byteAt f (7 + 2 * cnt)) (byteAt f (7 + 2 * cnt + 1)) then .error .feCrc
      else .ok (.writeIntent (byteAt f 0) (be16 (byteAt f 2) (byteAt f 3))
        (valuesOf cnt (f.drop 7))) := by
  have last : 10 + 2 * cnt - 1 = 9 + 2 * cnt := by omega
  have high : 8 + 2 * cnt = 7 + 2 * cnt + 1 := by omega
  have padded : 10 + 2 * cnt ≠ 9 + 2 * cnt := by omega
  simp only [parseWriteRequest, count, bytes, last, high, padded, ne_eq, not_true_eq_false,
    if_false, false_or, true_and]

/-! ## The checks of parseAnswer, in order (R510) -/

variable {a fn : Byte} {c : Nat}

theorem parseAnswer_feLen (out : n < 7 ∨ 256 < n) : parseAnswer n f a fn c = .error .feLen :=
  if_pos out

theorem parseAnswer_feAddr (lower : 7 ≤ n) (upper : n ≤ 256) (addr : byteAt f 0 ≠ a) :
    parseAnswer n f a fn c = .error .feAddr := by
  rw [parseAnswer, if_neg (by simp; omega), if_pos addr]

theorem parseAnswer_feFunc (lower : 7 ≤ n) (upper : n ≤ 256) (addr : byteAt f 0 = a)
    (func : byteAt f 1 ≠ fn) : parseAnswer n f a fn c = .error .feFunc := by
  rw [parseAnswer, if_neg (by simp; omega), if_neg (not_not.2 addr), if_pos func]

/-- Past the address and function checks, the byte count, the length and the checksum are left. -/
theorem parseAnswer_of_matching (lower : 7 ≤ n) (upper : n ≤ 256) (addr : byteAt f 0 = a)
    (func : byteAt f 1 = fn) : parseAnswer n f a fn c =
      if (byteAt f 2).toNat ≠ 2 * c then .error .feBcount
      else if n ≠ 5 + (byteAt f 2).toNat then .error .feTotlen
      else if crc16 (f.take (n - 2)) ≠ le16 (byteAt f (n - 2)) (byteAt f (n - 1)) then
        .error .feCrc
      else .ok (valuesOf c (f.drop 3)) := by
  rw [parseAnswer, if_neg (by simp; omega), if_neg (not_not.2 addr), if_neg (not_not.2 func)]

theorem parseAnswer_ok_length {vals : List U16} (h : parseAnswer n f a fn c = .ok vals) :
    7 ≤ n ∧ n ≤ 256 ∧ n = 5 + 2 * c := by
  rw [parseAnswer] at h
  split_ifs at h with out addr func bcount length
  simp only [Config.ansMin, Config.frameMax] at out
  omega

/-- The codes past the address and function checks, each with the check that gives it. -/
theorem parseAnswer_error_cases {e : Ferr} (addr : byteAt f 0 = a) (func : byteAt f 1 = fn)
    (h : parseAnswer n f a fn c = .error e) :
    e = .feLen ∧ (n < 7 ∨ 256 < n) ∨
    (7 ≤ n ∧ n ≤ 256) ∧
      (e = .feBcount ∧ (byteAt f 2).toNat ≠ 2 * c ∨
       e = .feTotlen ∧ (byteAt f 2).toNat = 2 * c ∨
       e = .feCrc ∧ n = 5 + 2 * c) := by
  by_cases out : n < 7 ∨ 256 < n
  · rw [parseAnswer_feLen out] at h
    cases h
    exact .inl ⟨rfl, out⟩
  · obtain ⟨lower, upper⟩ : 7 ≤ n ∧ n ≤ 256 := by omega
    rw [parseAnswer_of_matching lower upper addr func] at h
    refine .inr ⟨⟨lower, upper⟩, ?_⟩
    split_ifs at h with bcount length crc
    · cases h
      exact .inl ⟨rfl, bcount⟩
    · cases h
      exact .inr (.inl ⟨rfl, not_not.1 bcount⟩)
    · cases h
      exact .inr (.inr ⟨rfl, by omega⟩)

end Checks

/-! ## The checksum of a built frame -/

theorem byteAt_take {k i : Nat} (h : i < k) (l : List Byte) : byteAt (l.take k) i = byteAt l i := by
  simp [byteAt, h]

theorem take_add_two {l : List Byte} {k : Nat} (h : k + 2 ≤ l.length) :
    l.take (k + 2) = l.take k ++ [byteAt l k, byteAt l (k + 1)] := by
  rw [byteAt, byteAt, List.getD_eq_getElem l 0 (by omega), List.getD_eq_getElem l 0 (by omega),
    List.take_succ_eq_append_getElem (by omega), List.take_succ_eq_append_getElem (by omega),
    List.append_assoc, List.singleton_append]

/-- R405 in both directions: two bytes are the checksum of the bytes before them exactly when the
checksum taken over all of them is 0. -/
theorem crc16_take_eq_iff {f : List Byte} {k : Nat} (h : k + 2 ≤ f.length) :
    crc16 (f.take k) = le16 (byteAt f k) (byteAt f (k + 1)) ↔ crc16 (f.take (k + 2)) = 0#16 := by
  have own : crcFrom (le16 (byteAt f k) (byteAt f (k + 1))) [byteAt f k, byteAt f (k + 1)] =
      0#16 := by
    have bytes := crcFrom_own_bytes (le16 (byteAt f k) (byteAt f (k + 1)))
    rwa [le16, ← be16, hi_be16, lo_be16] at bytes
  rw [take_add_two h, crc16, crc16, crcFrom_append]
  constructor
  · intro same
    rw [same, own]
  · intro zero
    exact crcFrom_injective _ (zero.trans own.symm)

theorem crc16_framed_take (checked tail : List Byte) :
    crc16 ((framed checked tail).take (checked.length + 2)) = 0#16 := by
  have summed : (framed checked tail).take (checked.length + 2) = checked ++ crcBytes checked :=
    List.take_left' (by simp)
  have residue := crc16_append_own_bytes checked []
  rwa [List.append_nil, ← crcBytes_eq, ← summed] at residue

theorem byteAt_framed_pad {checked : List Byte} {i : Nat} (hi : checked.length + 2 = i) (b : Byte) :
    byteAt (framed checked [b]) i = b := by
  subst hi
  simp [framed, byteAt]

/-! ## An inverted bit -/

@[simp] theorem flipBit_length (l : List Byte) (i j : Nat) : (flipBit l i j).length = l.length :=
  List.length_set

theorem byteAt_flipBit_of_ne {i k : Nat} (h : k ≠ i) (l : List Byte) (j : Nat) :
    byteAt (flipBit l i j) k = byteAt l k := by
  simp [flipBit, byteAt, h.symm]

theorem byteAt_flipBit_self {l : List Byte} {i : Nat} (h : i < l.length) (j : Nat) :
    byteAt (flipBit l i j) i = byteAt l i ^^^ (1#8 <<< j) := by
  simp [flipBit, byteAt, h]

theorem byteAt_flipBit_self_ne {l : List Byte} {i j : Nat} (h : i < l.length) (hj : j < 8) :
    byteAt (flipBit l i j) i ≠ byteAt l i := by
  rw [byteAt_flipBit_self h]
  exact xor_bit_ne _ hj

theorem flipBit_ne {l : List Byte} {i j : Nat} (h : i < l.length) (hj : j < 8) :
    flipBit l i j ≠ l := fun same => byteAt_flipBit_self_ne h hj (congrArg (byteAt · i) same)

theorem flipBit_take {i k : Nat} (h : i < k) (l : List Byte) (j : Nat) :
    (flipBit l i j).take k = flipBit (l.take k) i j := by
  rw [flipBit, flipBit, List.take_set, byteAt_take h]

/-- An inverted bit of the pad leaves the checked bytes and their checksum as they are. -/
theorem flipBit_framed_pad {checked : List Byte} {i : Nat} (hi : checked.length + 2 = i) (b : Byte)
    (j : Nat) : flipBit (framed checked [b]) i j = framed checked [b ^^^ (1#8 <<< j)] := by
  subst hi
  rw [flipBit, byteAt_framed_pad rfl]
  simp [framed]

/-- R406 in a frame: an inverted bit of the checked bytes or of the checksum fails the check. -/
theorem crc16_flipBit_framed_ne {checked tail : List Byte} {k i j : Nat} (hk : checked.length = k)
    (hi : i < k + 2) (hj : j < 8) :
    crc16 ((flipBit (framed checked tail) i j).take k) ≠
      le16 (byteAt (flipBit (framed checked tail) i j) k)
        (byteAt (flipBit (framed checked tail) i j) (k + 1)) := by
  subst hk
  rw [Ne, crc16_take_eq_iff (by simp), flipBit_take hi, ← crc16_framed_take checked tail]
  exact crcDetectsSingleBit _ i j (by simp; omega) hj

/-- The two function codes differ in more than one bit, so an inverted bit of one makes neither. -/
theorem function_xor_bit_ne {j : Nat} (hj : j < 8) :
    (0x03#8 ^^^ (1#8 <<< j) ≠ 0x03#8 ∧ 0x03#8 ^^^ (1#8 <<< j) ≠ 0x10#8) ∧
    0x10#8 ^^^ (1#8 <<< j) ≠ 0x03#8 ∧ 0x10#8 ^^^ (1#8 <<< j) ≠ 0x10#8 := by
  revert j
  decide

/-! ## Read requests -/

/-- R504: what follows the checksum of a read request is ignored. -/
theorem parseReadRequest_framed (a : Byte) (st c : U16) (tail : List Byte) :
    parseReadRequest (framed (readRequestHead a st c) tail) = .ok (.readIntent a st c) := by
  have summed := (crc16_take_eq_iff (k := 6) (by simp)).2
    (crc16_framed_take (readRequestHead a st c) tail)
  rw [parseReadRequest, if_neg (not_not.2 summed)]
  simp [framed, readRequestHead, byteAt]

theorem parseSlaveRequest_flipBit_readRequest (a : Byte) (st c : U16) {i j : Nat} (hi : i < 9)
    (hj : j < 8) : parseSlaveRequest 9 (flipBit (buildReadRequest a st c) i j) =
      if i = 1 then .error .feFunc
      else if i = 8 then .ok (.readIntent a st c)
      else .error .feCrc := by
  have func : byteAt (buildReadRequest a st c) 1 = 0x03#8 := rfl
  have inside := hi.trans_eq (buildReadRequest_length a st c).symm
  by_cases at_func : i = 1
  · subst at_func
    obtain ⟨⟨not_read, not_write⟩, -⟩ := function_xor_bit_ne hj
    have flipped := byteAt_flipBit_self inside j
    rw [func] at flipped
    exact parseSlaveRequest_feFunc (by decide) (by decide) (flipped ▸ not_read)
      (flipped ▸ not_write)
  rw [if_neg at_func, parseSlaveRequest_of_read (by decide) (by decide)
    ((byteAt_flipBit_of_ne (Ne.symm at_func) _ j).trans func)]
  by_cases at_pad : i = 8
  · subst at_pad
    rw [if_pos rfl, buildReadRequest, flipBit_framed_pad (i := 8) rfl]
    exact parseReadRequest_framed a st c _
  · rw [if_neg at_pad]
    exact parseReadRequest_feCrc (crc16_flipBit_framed_ne rfl (by simp; omega) hj)

/-! ## Write requests -/

theorem be16_zero_toNat (b : Byte) : (be16 0#8 b).toNat = b.toNat := by
  rw [← setWidth_eq_be16, BitVec.toNat_setWidth_of_le (by decide)]

/-- The function, the count and the byte count of a built write request (R452). -/
theorem writeRequest_fields (a : Byte) (st : U16) {vals : List U16} (fits : vals.length ≤ 123) :
    byteAt (buildWriteRequest a st vals) 1 = 0x10#8 ∧
    (be16 (byteAt (buildWriteRequest a st vals) 4) (byteAt (buildWriteRequest a st vals) 5)).toNat =
      vals.length ∧
    (byteAt (buildWriteRequest a st vals) 6).toNat = 2 * vals.length := by
  refine ⟨rfl, ?count, ?bytes⟩
  case count => exact (be16_zero_toNat (BitVec.ofNat 8 vals.length)).trans (by simp; omega)
  case bytes => exact (BitVec.toNat_ofNat ..).trans (by omega)

/-- An inverted bit of the count or of the byte count changes one side of their equation only. -/
theorem byteCount_flipBit_ne {f : List Byte} {i j : Nat} (long : 7 ≤ f.length)
    (bcount : (byteAt f 6).toNat = 2 * (be16 (byteAt f 4) (byteAt f 5)).toNat)
    (hi : i = 4 ∨ i = 5 ∨ i = 6) (hj : j < 8) :
    (byteAt (flipBit f i j) 6).toNat ≠
      2 * (be16 (byteAt (flipBit f i j) 4) (byteAt (flipBit f i j) 5)).toNat := by
  intro same
  have changed := byteAt_flipBit_self_ne (l := f) (i := i) (by omega) hj
  have kept {k : Nat} (h : k ≠ i) := byteAt_flipBit_of_ne h f j
  obtain rfl | rfl | rfl := hi
  · rw [kept (k := 5) (by decide), kept (k := 6) (by decide), bcount] at same
    have count := BitVec.eq_of_toNat_eq (Nat.eq_of_mul_eq_mul_left two_pos same.symm)
    exact changed (be16_inj count).1
  · rw [kept (k := 4) (by decide), kept (k := 6) (by decide), bcount] at same
    have count := BitVec.eq_of_toNat_eq (Nat.eq_of_mul_eq_mul_left two_pos same.symm)
    exact changed (be16_inj count).2
  · rw [kept (k := 4) (by decide), kept (k := 5) (by decide), ← bcount] at same
    exact changed (BitVec.eq_of_toNat_eq same)

theorem parseSlaveRequest_flipBit_writeRequest (a : Byte) (st : U16) {vals : List U16}
    (fits : vals.length ≤ 123) {i j : Nat} (hi : i < 10 + 2 * vals.length) (hj : j < 8) :
    parseSlaveRequest (10 + 2 * vals.length) (flipBit (buildWriteRequest a st vals) i j) =
      .error (if i = 1 then .feFunc
        else if i = 4 ∨ i = 5 ∨ i = 6 then .piBcount
        else if i = 9 + 2 * vals.length then .feTotlen
        else .feCrc) := by
  obtain ⟨func, count, bytes⟩ := writeRequest_fields a st fits
  have inside := hi.trans_eq (buildWriteRequest_length a st vals).symm
  by_cases at_func : i = 1
  · subst at_func
    obtain ⟨-, not_read, not_write⟩ := function_xor_bit_ne hj
    have flipped := byteAt_flipBit_self inside j
    rw [func] at flipped
    exact parseSlaveRequest_feFunc (by omega) (by omega) (flipped ▸ not_read)
      (flipped ▸ not_write)
  rw [if_neg at_func, parseSlaveRequest_of_write (by omega) (by omega)
    ((byteAt_flipBit_of_ne (Ne.symm at_func) _ j).trans func)]
  by_cases at_count : i = 4 ∨ i = 5 ∨ i = 6
  · rw [if_pos at_count, parseWriteRequest_piBcount
      (byteCount_flipBit_ne (by simp; omega) (by rw [count, bytes]) at_count hj)]
  have kept {k : Nat} (h : k ≠ i) := byteAt_flipBit_of_ne h (buildWriteRequest a st vals) j
  rw [← kept (k := 4) (by omega), ← kept (k := 5) (by omega)] at count
  rw [← kept (by omega)] at bytes
  rw [if_neg at_count, parseWriteRequest_padded count bytes]
  have pad : byteAt (buildWriteRequest a st vals) (9 + 2 * vals.length) = 0x00#8 :=
    byteAt_framed_pad (by simp; omega) _
  by_cases at_pad : i = 9 + 2 * vals.length
  · subst at_pad
    rw [if_pos rfl, if_pos (pad ▸ byteAt_flipBit_self_ne inside hj)]
  · rw [if_neg at_pad, kept (Ne.symm at_pad), if_neg (not_not.2 pad)]
    exact if_pos (crc16_flipBit_framed_ne (by simp) (by omega) hj)

/-! ## Read answers and write acks -/

theorem parseAnswer_flipBit_answerFrame (a : Byte) {vals : List U16} (nonempty : 1 ≤ vals.length)
    (fits : vals.length ≤ 125) {i j : Nat} (hi : i < 5 + 2 * vals.length) (hj : j < 8) :
    parseAnswer (5 + 2 * vals.length) (flipBit (answerFrame a vals) i j) a 0x03#8 vals.length =
      .error (if i = 0 then .feAddr
        else if i = 1 then .feFunc
        else if i = 2 then .feBcount
        else .feCrc) := by
  have inside : i < (answerFrame a vals).length := by simp [answerFrame]; omega
  have changed := byteAt_flipBit_self_ne inside hj
  have kept {k : Nat} (h : k ≠ i) := byteAt_flipBit_of_ne h (answerFrame a vals) j
  by_cases at_addr : i = 0
  · subst at_addr
    exact parseAnswer_feAddr (by omega) (by omega) changed
  have addr : byteAt (flipBit (answerFrame a vals) i j) 0 = a := kept (Ne.symm at_addr)
  by_cases at_func : i = 1
  · subst at_func
    exact parseAnswer_feFunc (by omega) (by omega) addr changed
  have func : byteAt (flipBit (answerFrame a vals) i j) 1 = 0x03#8 := kept (Ne.symm at_func)
  have bytes : (byteAt (answerFrame a vals) 2).toNat = 2 * vals.length :=
    (BitVec.toNat_ofNat ..).trans (by omega)
  rw [if_neg at_addr, if_neg at_func, parseAnswer_of_matching (by omega) (by omega) addr func]
  by_cases at_bytes : i = 2
  · subst at_bytes
    rw [if_pos rfl, if_pos fun same => changed (BitVec.eq_of_toNat_eq (same.trans bytes.symm))]
  · rw [if_neg at_bytes, kept (Ne.symm at_bytes), bytes, if_neg (not_not.2 rfl),
      if_neg (not_not.2 rfl)]
    have low : 5 + 2 * vals.length - 2 = 3 + 2 * vals.length := by omega
    have high : 5 + 2 * vals.length - 1 = 3 + 2 * vals.length + 1 := by omega
    rw [low, high]
    exact if_pos (crc16_flipBit_framed_ne (by simp; omega) (by omega) hj)

theorem ackMatch_of_ne {f ackExp : List Byte} (hf : f.length = 8) (he : ackExp.length = 8)
    (h : f ≠ ackExp) : ackMatch 8 f ackExp = .ackMismatch := by
  rw [ackMatch, List.take_of_length_le hf.le, List.take_of_length_le he.le,
    if_neg fun same => h same.2]

/-! ## The statements -/

/-- Settles O21: a success has length 5 + 2 · expCount within 7 and 256; an error is of one check,
and each check's condition leaves the counts and lengths at which its code can come. -/
theorem parseAnswerImpossibleCounts : Obligations.ParseAnswerImpossibleCounts := by
  refine ⟨fun n f a fn c vals h => ?success, fun n f a fn c e addr func h => ?codes⟩
  case success =>
    obtain ⟨lower, upper, length⟩ := parseAnswer_ok_length h
    omega
  case codes =>
    have byte := (byteAt f 2).isLt
    obtain ⟨rfl, out⟩ | ⟨bounds, ⟨rfl, bcount⟩ | ⟨rfl, bcount⟩ | ⟨rfl, length⟩⟩ :=
      parseAnswer_error_cases addr func h
    · simp; omega
    · simp; omega
    · simp; omega
    · simp; omega

/-- Settles O22: the flipped byte either fails a check of its own field, or leaves the fields and
fails the checksum, or is the ignored pad of a read request. -/
theorem singleBitErrorsRejected : Obligations.SingleBitErrorsRejected :=
  ⟨fun a st c _ _ hi hj => parseSlaveRequest_flipBit_readRequest a st c hi hj,
    fun a st _ _ _ _ fits hi hj => parseSlaveRequest_flipBit_writeRequest a st fits hi hj,
    fun a _ _ _ nonempty fits hi hj => parseAnswer_flipBit_answerFrame a nonempty fits hi hj,
    fun _ _ _ _ _ hi hj =>
      ackMatch_of_ne (by simp) (by simp) (flipBit_ne (hi.trans_eq (ackFrame_length ..).symm) hj)⟩

end Sys2Proof.Proofs.FrameDecoder
end

section
/-! PROOFS. What a start bit and a received byte do (43_line_and_arbiter.md R552, R554–R556, R559,
45_turn_sequencer.md R662): while the block drives the line, in a guard or a pause, and
elsewhere. -/

namespace Sys2Proof.Proofs.ReceivedCharacters

open Sys2Proof Sys2Proof.Machine

/-! ## A byte joins or opens a frame -/

/-- The receiver after a byte that joins the open frame, or opens one of the owner its first byte
fixes (R554, R555). -/
def receiverWithByte (b : Byte) (ferr : Bool) (s : State) : Receiver :=
  { active := false
    inFrame := true
    len := if s.rx.inFrame then min (s.rx.len + 1) 511 else 1
    gap := 0
    ferr := (s.rx.inFrame && s.rx.ferr) || ferr
    owner := if s.rx.inFrame then s.rx.owner else if s.seq = .wait then .answer else .snoop
    buf := if s.rx.inFrame then (if s.rx.len < 256 then s.rx.buf ++ [b] else s.rx.buf) else [b] }

/-- The state in which the byte has joined its frame and nothing else has acted on it. -/
def withByte (b : Byte) (ferr : Bool) (s : State) : State :=
  { s with
    quietMs := 0
    rx := receiverWithByte b ferr s
    ansSeen := s.ansSeen || (!s.rx.inFrame && s.seq == .wait) }

theorem withByte_joined {s : State} (h : s.rx.inFrame = true) (b : Byte) (ferr : Bool) :
    withByte b ferr s = storeByte b ferr { s with rx.active := false, quietMs := 0 } := by
  simp [withByte, receiverWithByte, storeByte, h]

theorem withByte_opened {s : State} (h : s.rx.inFrame = false) (b : Byte) (ferr : Bool) :
    withByte b ferr s =
      storeByte b ferr (openFrame { s with rx.active := false, quietMs := 0 }) := by
  by_cases hw : s.seq = .wait <;>
    simp [withByte, receiverWithByte, storeByte, openFrame, frameOwner, h, hw]

/-- R559: the block does not hear itself. -/
theorem rxStart_of_driving {s : State} (h : s.tx.de = true) : rxStart s = s := if_pos h

theorem rxByte_of_driving {s : State} (h : s.tx.de = true) (b : Byte) (ferr : Bool) :
    rxByte b ferr s = s := if_pos h

/-- A byte heard: it joins its frame, aborts a guard or a pause, and is observed when it is the
first of a frame owned by SNOOP (R554). -/
theorem rxByte_of_listening {s : State} (h : s.tx.de = false) (b : Byte) (ferr : Bool) :
    rxByte b ferr s =
      let s2 := withByte b ferr s
      let s3 := if watching s then abortTurn .activity s2 else s2
      if !s.rx.inFrame && decide (s3.rx.owner = .snoop) then observe s3 else s3 := by
  have notDriving : ¬s.tx.de = true := by simp [h]
  unfold rxByte
  rw [if_neg notDriving]
  cases hf : s.rx.inFrame with
  | true => rw [withByte_joined hf]; rfl
  | false => rw [withByte_opened hf]; rfl

theorem watching_iff (s : State) : watching s = true ↔ s.seq = .guard ∨ s.seq = .pause := by
  unfold watching
  cases s.seq <;> decide

/-! ## Foreign traffic -/

/-- R556: foreign traffic forces SLAVE when EN = 1, and ends LISTEN. -/
theorem observe_eq (s : State) : observe s =
    let forced := s.en && s.arb != .slave
    { s with
      arb := if forced then .slave else s.arb
      irqStatus := if forced then s.irqStatus ||| 0x020#9 else s.irqStatus
      seq := if forced && s.seq == .listen then .off else s.seq
      unit := if forced && s.seq == .listen then .mode0 else s.unit
      step := if forced && s.seq == .listen then 0 else s.step } := by
  unfold observe
  by_cases forced : s.en = true ∧ s.arb ≠ .slave
  · obtain ⟨en, arb⟩ := forced
    by_cases listening : s.seq = .listen
    · simp [setArb_eq, leaveTurn, en, arb, listening, IrqFlag.mask, IrqFlag.bit]
    · simp [setArb_eq, en, arb, listening, IrqFlag.mask, IrqFlag.bit]
  · simp [forced]

theorem observe_of_slave {s : State} (h : s.arb = .slave) : observe s = s := by
  simp [observe, h]

theorem abortTurn_activity_eq (s : State) : abortTurn .activity s =
    { s with
      seq := .off, unit := .mode0, step := 0, lastAbort := .activity, txnDiscard := false
      txn := none, arb := .slave
      cnt := { s.cnt with aborts := s.cnt.aborts + 1 }
      irqStatus := s.irqStatus ||| 0x004#9 ||| (if s.arb = .slave then 0#9 else 0x020#9) } := by
  rw [abortTurn_eq, setArb_eq]
  by_cases slave : s.arb = .slave <;> simp [AbortReason.target, slave, IrqFlag.mask, IrqFlag.bit]

/-! ## The statements -/

/-- Settles O30: while driving nothing is heard; else the byte joins its frame, and a first byte
outside WAIT, whose frame is owned by SNOOP, is observed. -/
theorem receivedCharacterEffects : Obligations.ReceivedCharacterEffects := by
  refine ⟨fun b ferr s driving => ⟨?_, ?_⟩, fun b ferr s listening guard pause => ?_⟩
  · rw [handle, rxStart_of_driving driving]
  · rw [handle, rxByte_of_driving driving]
  have quiet : watching s = false := by simp [← Bool.not_eq_true, watching_iff, guard, pause]
  refine ⟨?start, ?byte⟩
  case start =>
    have unwatched : watching { s with rx.active := true } = false := quiet
    simp [handle, rxStart, listening, unwatched]
  case byte =>
    rw [handle, rxByte_of_listening listening, quiet]
    cases hf : s.rx.inFrame with
    | true => simp [withByte, receiverWithByte, hf]
    | false =>
      by_cases hw : s.seq = .wait
      · simp [withByte, receiverWithByte, hf, hw]
      · simp [observe_eq, withByte, receiverWithByte, hf, hw]

/-- Settles O31: the byte has joined its frame when the turn is aborted; the abort leads to SLAVE,
where the observation of a first byte changes nothing. -/
theorem activityAbortsTurn : Obligations.ActivityAbortsTurn := by
  intro b ferr s listening waits
  have watched : watching s = true := (watching_iff s).2 waits
  have notWait : s.seq ≠ .wait := by rintro h; simp [h] at waits
  refine ⟨?start, ?byte⟩
  case start =>
    have watched' : watching { s with rx.active := true } = true := watched
    simp [handle, rxStart, listening, watched', abortTurn_activity_eq]
  case byte =>
    rw [handle, rxByte_of_listening listening, watched]
    cases hf : s.rx.inFrame <;>
      simp [abortTurn_activity_eq, observe_of_slave, withByte, receiverWithByte, notWait, hf]

end Sys2Proof.Proofs.ReceivedCharacters
end

section
/-! PROOFS. Wire frames as instructions (30_encoding.md R310–R313, 42_frame_decoder.md R501–R515): a
frame that decodes is the encoding of what it decodes to, the end of a frame's instruction is the
end of its frame, and a request is parsed to its own operands. -/

namespace Sys2Proof.Proofs.WireFrames

open Sys2Proof Sys2Proof.Machine Sys2Proof.Proofs.FrameDecoder

/-! ## Bytes of a list -/

theorem take_eq_map_byteAt {l : List Byte} {k : Nat} (h : k ≤ l.length) :
    l.take k = (List.range k).map (byteAt l) := by
  refine List.ext_getElem (by simp [h]) fun i hi _ => ?_
  have inside : i < l.length := by simp at hi; omega
  simp [byteAt, inside]

@[simp] theorem lo_le16 (a b : Byte) : lo (le16 a b) = a := lo_be16 b a

@[simp] theorem hi_le16 (a b : Byte) : hi (le16 a b) = b := hi_be16 b a

/-- A frame is framed from its checked bytes when its checksum is right (R403). -/
theorem framed_of_checksum {f : List Byte} {k : Nat} (h : k + 2 ≤ f.length)
    (crc : crc16 (f.take k) = le16 (byteAt f k) (byteAt f (k + 1))) :
    framed (f.take k) (f.drop (k + 2)) = f := by
  rw [framed, crcBytes_eq, crc, lo_le16, hi_le16, ← take_add_two h, List.take_append_drop]

/-- The checksum of a frame is right. -/
theorem checksum_of_framed {checked : List Byte} {k : Nat} (hk : checked.length = k)
    (tail : List Byte) : crc16 ((framed checked tail).take k) =
      le16 (byteAt (framed checked tail) k) (byteAt (framed checked tail) (k + 1)) := by
  subst hk
  exact (crc16_take_eq_iff (by simp)).2 (crc16_framed_take checked tail)

/-! ## Accepted requests -/

section Accepted

variable {n : Nat} {f : List Byte} {q : ParsedRequest}

theorem parseReadRequest_ok (h : parseReadRequest f = .ok q) :
    crc16 (f.take 6) = le16 (byteAt f 6) (byteAt f 7) ∧
    q = .readIntent (byteAt f 0) (be16 (byteAt f 2) (byteAt f 3))
      (be16 (byteAt f 4) (byteAt f 5)) := by
  rw [parseReadRequest] at h
  split_ifs at h with crc
  cases h
  exact ⟨not_not.1 crc, rfl⟩

/-- Past the byte count, the length and the checksum are left (R505). -/
theorem parseWriteRequest_of_count {cnt : Nat}
    (count : (be16 (byteAt f 4) (byteAt f 5)).toNat = cnt)
    (bytes : (byteAt f 6).toNat = 2 * cnt) : parseWriteRequest n f =
      if ¬(n = 9 + 2 * cnt ∨ (n = 10 + 2 * cnt ∧ byteAt f (n - 1) = 0x00#8)) then .error .feTotlen
      else if crc16 (f.take (7 + 2 * cnt)) ≠
          le16 (byteAt f (7 + 2 * cnt)) (byteAt f (7 + 2 * cnt + 1)) then .error .feCrc
      else .ok (.writeIntent (byteAt f 0) (be16 (byteAt f 2) (byteAt f 3))
        (valuesOf cnt (f.drop 7))) := by
  have high : 8 + 2 * cnt = 7 + 2 * cnt + 1 := by omega
  simp only [parseWriteRequest, count, bytes, high, ne_eq, not_true_eq_false, if_false]

theorem parseWriteRequest_ok (h : parseWriteRequest n f = .ok q) :
    ∃ cnt, (be16 (byteAt f 4) (byteAt f 5)).toNat = cnt ∧ (byteAt f 6).toNat = 2 * cnt ∧
      (n = 9 + 2 * cnt ∨ (n = 10 + 2 * cnt ∧ byteAt f (n - 1) = 0x00#8)) ∧
      crc16 (f.take (7 + 2 * cnt)) = le16 (byteAt f (7 + 2 * cnt)) (byteAt f (7 + 2 * cnt + 1)) ∧
      q = .writeIntent (byteAt f 0) (be16 (byteAt f 2) (byteAt f 3)) (valuesOf cnt (f.drop 7)) := by
  by_cases bytes : (byteAt f 6).toNat = 2 * (be16 (byteAt f 4) (byteAt f 5)).toNat
  · rw [parseWriteRequest_of_count rfl bytes] at h
    split_ifs at h with length crc
    cases h
    exact ⟨_, rfl, bytes, length, not_not.1 crc, rfl⟩
  · rw [parseWriteRequest_piBcount bytes] at h
    cases h

theorem parseSlaveRequest_ok (h : parseSlaveRequest n f = .ok q) :
    8 ≤ n ∧ (byteAt f 1 = 0x03#8 ∧ parseReadRequest f = .ok q ∨
      byteAt f 1 = 0x10#8 ∧ parseWriteRequest n f = .ok q) := by
  rw [parseSlaveRequest] at h
  split_ifs at h with out read write
  · exact ⟨by simp at out; omega, .inl ⟨read, h⟩⟩
  · exact ⟨by simp at out; omega, .inr ⟨write, h⟩⟩

end Accepted

/-! ## A frame that decodes is an encoding -/

theorem readRequestFrame_of_parsed {f : List Byte} (long : 8 ≤ f.length)
    (func : byteAt f 1 = 0x03#8)
    (crc : crc16 (f.take 6) = le16 (byteAt f 6) (byteAt f 7)) :
    readRequestFrame (byteAt f 0) (be16 (byteAt f 2) (byteAt f 3)) (be16 (byteAt f 4) (byteAt f 5))
      (f.drop 8) = f := by
  have head : readRequestHead (byteAt f 0) (be16 (byteAt f 2) (byteAt f 3))
      (be16 (byteAt f 4) (byteAt f 5)) = f.take 6 := by
    rw [take_eq_map_byteAt (by omega), readRequestHead, hi_be16, lo_be16, hi_be16, lo_be16, ← func]
    rfl
  rw [readRequestFrame, head]
  exact framed_of_checksum (k := 6) long crc

/-- A count of at most 127 leaves the high byte of its field 0 (R505). -/
theorem be16_count_bytes {a b : Byte} {cnt : Nat} (count : (be16 a b).toNat = cnt)
    (small : cnt < 128) : a = 0x00#8 ∧ b = BitVec.ofNat 8 cnt := by
  refine be16_inj (BitVec.eq_of_toNat_eq ?_)
  rw [count, be16_zero_toNat, BitVec.toNat_ofNat, Nat.mod_eq_of_lt (by omega)]

theorem writeRequestFrame_of_parsed {f : List Byte} {cnt : Nat} (func : byteAt f 1 = 0x10#8)
    (count : (be16 (byteAt f 4) (byteAt f 5)).toNat = cnt) (bytes : (byteAt f 6).toNat = 2 * cnt)
    (length : f.length = 9 + 2 * cnt ∨
      (f.length = 10 + 2 * cnt ∧ byteAt f (f.length - 1) = 0x00#8))
    (crc : crc16 (f.take (7 + 2 * cnt)) =
      le16 (byteAt f (7 + 2 * cnt)) (byteAt f (7 + 2 * cnt + 1))) :
    writeRequestFrame (byteAt f 0) (be16 (byteAt f 2) (byteAt f 3)) (valuesOf cnt (f.drop 7))
      (f.length == 10 + 2 * (valuesOf cnt (f.drop 7)).length) = f := by
  have enough : 2 * cnt ≤ (f.drop 7).length := by simp; omega
  obtain ⟨high, low⟩ := be16_count_bytes count (by have := (byteAt f 6).isLt; omega)
  have six : byteAt f 6 = BitVec.ofNat 8 (2 * cnt) := by rw [← bytes, BitVec.ofNat_toNat]; simp
  have head : writeRequestHead (byteAt f 0) (be16 (byteAt f 2) (byteAt f 3)) cnt = f.take 7 := by
    rw [take_eq_map_byteAt (by omega), writeRequestHead, hi_be16, lo_be16, ← func, ← high, ← low,
      ← six]
    rfl
  have checked : f.take 7 ++ valueBytes (valuesOf cnt (f.drop 7)) = f.take (7 + 2 * cnt) := by
    rw [valueBytes_valuesOf _ _ enough, ← List.take_add]
  have pad : (if f.length == 10 + 2 * cnt then [0x00#8] else []) = f.drop (7 + 2 * cnt + 2) := by
    rcases length with bare | ⟨padded, zero⟩
    · simp [bare]; omega
    · have last : f[7 + 2 * cnt + 2]'(by omega) = 0x00#8 := by
        rw [padded, byteAt, List.getD_eq_getElem f 0 (by omega)] at zero
        simpa only [show 10 + 2 * cnt - 1 = 7 + 2 * cnt + 2 by omega] using zero
      rw [List.drop_eq_getElem_cons (by omega), List.drop_eq_nil_of_le (by omega), last,
        if_pos (by simp [padded])]
  rw [writeRequestFrame, valuesOf_length _ _ enough, head, checked, pad]
  exact framed_of_checksum (by omega) crc

theorem encode_of_decodeRequest {f : List Byte} {i : Instr} (h : decodeRequest f = .ok i) :
    encode i = some (.frame f) := by
  unfold decodeRequest at h
  cases hq : parseSlaveRequest f.length f with
  | error e => rw [hq] at h; cases h
  | ok q =>
    rw [hq] at h
    obtain ⟨long, ⟨func, parsed⟩ | ⟨func, parsed⟩⟩ := parseSlaveRequest_ok hq
    · obtain ⟨crc, rfl⟩ := parseReadRequest_ok parsed
      cases h
      exact congrArg (some ∘ Code.frame) (readRequestFrame_of_parsed long func crc)
    · obtain ⟨cnt, count, bytes, length, crc, rfl⟩ := parseWriteRequest_ok parsed
      cases h
      exact congrArg (some ∘ Code.frame) (writeRequestFrame_of_parsed func count bytes length crc)

theorem parseAnswer_ok {n : Nat} {f : List Byte} {a fn : Byte} {c : Nat} {vals : List U16}
    (h : parseAnswer n f a fn c = .ok vals) :
    byteAt f 1 = fn ∧ (byteAt f 2).toNat = 2 * c ∧ n = 3 + 2 * c + 2 ∧
      crc16 (f.take (3 + 2 * c)) = le16 (byteAt f (3 + 2 * c)) (byteAt f (3 + 2 * c + 1)) ∧
      vals = valuesOf c (f.drop 3) := by
  obtain ⟨-, -, length⟩ := parseAnswer_ok_length h
  have low : n - 2 = 3 + 2 * c := by omega
  have high : n - 1 = 3 + 2 * c + 1 := by omega
  rw [parseAnswer, low, high] at h
  split_ifs at h with _ _ func bytes _ crc
  cases h
  exact ⟨not_not.1 func, not_not.1 bytes, by omega, not_not.1 crc, rfl⟩

theorem answerFrame_of_parsed {f : List Byte} {c : Nat} (func : byteAt f 1 = 0x03#8)
    (bytes : (byteAt f 2).toNat = 2 * c) (length : f.length = 3 + 2 * c + 2)
    (crc : crc16 (f.take (3 + 2 * c)) = le16 (byteAt f (3 + 2 * c)) (byteAt f (3 + 2 * c + 1))) :
    answerFrame (byteAt f 0) (valuesOf c (f.drop 3)) = f := by
  have enough : 2 * c ≤ (f.drop 3).length := by simp; omega
  have two : byteAt f 2 = BitVec.ofNat 8 (2 * c) := by rw [← bytes, BitVec.ofNat_toNat]; simp
  have head : [byteAt f 0, 0x03#8, BitVec.ofNat 8 (2 * c)] = f.take 3 := by
    rw [take_eq_map_byteAt (by omega), ← func, ← two]
    rfl
  have whole := framed_of_checksum length.ge crc
  rw [← length, List.drop_length] at whole
  rw [answerFrame, valuesOf_length _ _ enough, head, valueBytes_valuesOf _ _ enough,
    ← List.take_add, whole]

theorem encode_of_decodeAnswer {f : List Byte} {i : Instr} (h : decodeAnswer f = .ok i) :
    encode i = some (.frame f) := by
  unfold decodeAnswer at h
  split at h
  · cases h
  · rename_i vals parsed
    obtain ⟨func, bytes, length, crc, rfl⟩ := parseAnswer_ok parsed
    cases h
    exact congrArg (some ∘ Code.frame) (answerFrame_of_parsed func bytes length crc)

theorem encode_of_decodeAck {f : List Byte} {i : Instr} (h : decodeAck f = .ok i) :
    encode i = some (.frame f) := by
  unfold decodeAck at h
  dsimp only at h
  split at h
  · rename_i matched
    cases h
    rw [ackMatch] at matched
    split_ifs at matched with same
    obtain ⟨length, bytes⟩ := same
    rw [List.take_of_length_le length.le, List.take_of_length_le (by simp [ackFrame])] at bytes
    exact congrArg (some ∘ Code.frame) bytes.symm
  · cases h

/-- A frame that decodes is the frame of its instruction. -/
theorem encode_of_decodeFrame {role : FrameRole} {f : List Byte} {i : Instr}
    (h : decodeFrame role f = .ok i) : encode i = some (.frame f) := by
  cases role with
  | request => exact encode_of_decodeRequest h
  | answer => exact encode_of_decodeAnswer h
  | ack => exact encode_of_decodeAck h

/-! ## The end of a frame -/

/-- A frame's instruction is the end of that frame (R557). -/
theorem exec_of_encode_frame {i : Instr} {f : List Byte} (h : encode i = some (.frame f))
    (s : State) : exec i s = .next (endFrame f s) := by
  cases i with
  | readRequest | readAnswer | writeRequest | writeAck => cases h; rfl
  | _ => cases h

theorem encode_of_receivedInstr {s : State} {i : Instr} (h : receivedInstr s = some i) :
    encode i = some (.frame s.rx.buf) ∧ s.rx.len ≤ 256 := by
  unfold receivedInstr at h
  split at h
  · cases h
  · rename_i parsed
    have short : s.rx.len ≤ 256 := by simp at parsed; omega
    split at h
    · cases h
    · rename_i role _
      cases hd : decodeFrame role s.rx.buf with
      | error e => rw [hd] at h; cases h
      | ok j => rw [hd] at h; cases h; exact ⟨encode_of_decodeFrame hd, short⟩

/-- Run as an instruction or not, the open frame goes to its owner as it stands (R557). -/
theorem frameEnd_eq {s : State} (stored : s.rx.buf.length = min s.rx.len 256) :
    frameEnd exec s = .next (deliverFrame s.rx.len s.rx.buf s) := by
  unfold frameEnd
  cases hi : receivedInstr s with
  | none => rfl
  | some i =>
    obtain ⟨encoded, short⟩ := encode_of_receivedInstr hi
    have length : s.rx.buf.length = s.rx.len := by omega
    dsimp only
    rw [exec_of_encode_frame encoded, endFrame, length]

/-! ## Requests are parsed to their operands -/

theorem parseSlaveRequest_readRequestFrame (a : Byte) (st c : U16) {tail : List Byte}
    (fits : tail.length ≤ 248) :
    parseSlaveRequest (readRequestFrame a st c tail).length (readRequestFrame a st c tail) =
      .ok (.readIntent a st c) := by
  have length : (readRequestFrame a st c tail).length = 8 + tail.length := by
    simp [readRequestFrame]
  rw [parseSlaveRequest_of_read (by omega) (by omega) rfl]
  exact parseReadRequest_framed a st c tail

theorem writeRequestFrame_fields (a : Byte) (st : U16) {vals : List U16} (pad : Bool)
    (fits : vals.length ≤ 123) :
    byteAt (writeRequestFrame a st vals pad) 0 = a ∧
    byteAt (writeRequestFrame a st vals pad) 1 = 0x10#8 ∧
    be16 (byteAt (writeRequestFrame a st vals pad) 2) (byteAt (writeRequestFrame a st vals pad) 3) =
      st ∧
    (be16 (byteAt (writeRequestFrame a st vals pad) 4)
      (byteAt (writeRequestFrame a st vals pad) 5)).toNat = vals.length ∧
    (byteAt (writeRequestFrame a st vals pad) 6).toNat = 2 * vals.length := by
  refine ⟨rfl, rfl, be16_hi_lo st, ?count, ?bytes⟩
  case count => exact (be16_zero_toNat (BitVec.ofNat 8 vals.length)).trans (by simp; omega)
  case bytes => exact (BitVec.toNat_ofNat ..).trans (by omega)

theorem writeRequestFrame_length (a : Byte) (st : U16) (vals : List U16) (pad : Bool) :
    (writeRequestFrame a st vals pad).length =
      9 + 2 * vals.length + (if pad then 1 else 0) := by
  cases pad <;> simp [writeRequestFrame] <;> omega

/-- A write request is as long as its byte count says, with or without the pad 0x00 (R505). -/
theorem writeRequestFrame_length_or_padded (a : Byte) (st : U16) (vals : List U16) (pad : Bool) :
    (writeRequestFrame a st vals pad).length = 9 + 2 * vals.length ∨
    ((writeRequestFrame a st vals pad).length = 10 + 2 * vals.length ∧
      byteAt (writeRequestFrame a st vals pad) ((writeRequestFrame a st vals pad).length - 1) =
        0x00#8) := by
  rw [writeRequestFrame_length]
  cases pad with
  | false => exact .inl rfl
  | true => exact .inr ⟨by simp; omega, byteAt_framed_pad (by simp; omega) _⟩

theorem valuesOf_writeRequestFrame (a : Byte) (st : U16) (vals : List U16) (pad : Bool) :
    valuesOf vals.length ((writeRequestFrame a st vals pad).drop 7) = vals := by
  have past_head : (writeRequestFrame a st vals pad).drop 7 = valueBytes vals ++
      (crcBytes (writeRequestHead a st vals.length ++ valueBytes vals) ++
        if pad then [0x00#8] else []) := by
    rw [writeRequestFrame, framed, List.append_assoc, List.append_assoc]
    rfl
  rw [past_head, valuesOf_valueBytes]

theorem parseSlaveRequest_writeRequestFrame (a : Byte) (st : U16) {vals : List U16} (pad : Bool)
    (fits : vals.length ≤ 123) :
    parseSlaveRequest (writeRequestFrame a st vals pad).length (writeRequestFrame a st vals pad) =
      .ok (.writeIntent a st vals) := by
  obtain ⟨addr, func, start, count, bytes⟩ := writeRequestFrame_fields a st pad fits
  have length := writeRequestFrame_length_or_padded a st vals pad
  have crc := checksum_of_framed (k := 7 + 2 * vals.length)
    (checked := writeRequestHead a st vals.length ++ valueBytes vals) (by simp)
    (if pad then [0x00#8] else [])
  rw [← writeRequestFrame] at crc
  rw [parseSlaveRequest_of_write (by omega) (by omega) func, parseWriteRequest_of_count count bytes,
    if_neg (not_not.2 length), if_neg (not_not.2 crc), addr, start, valuesOf_writeRequestFrame]

end Sys2Proof.Proofs.WireFrames
end

section
/-! PROOFS. How a received frame ends and who receives it (43_line_and_arbiter.md R553, R557, R558):
the gap, the record of the snoop, and the wire frames as instructions. -/

namespace Sys2Proof.Proofs.FrameDelivery

open Sys2Proof Sys2Proof.Machine Sys2Proof.Proofs.WireFrames
open Sys2Proof.Proofs.WriteQueue (countBit_eq transmitTick_of_ne_tx)

/-! ## The gap -/

theorem receiveTick_of_no_gap {s : State} (h : s.rx.inFrame = false ∨ s.rx.active = true) :
    receiveTick exec s = .next s := by
  have noGap : ¬(s.rx.inFrame && !s.rx.active) = true := by
    rcases h with closed | active
    · simp [closed]
    · simp [active]
  exact if_neg noGap

theorem receiveTick_of_gap {s : State} (opened : s.rx.inFrame = true)
    (silent : s.rx.active = false) :
    receiveTick exec s =
      let s1 := { s with rx.gap := min (s.rx.gap + 1) 255 }
      if s.cfg.tGap.toNat ≤ min (s.rx.gap + 1) 255 then frameEnd exec s1 else .next s1 := by
  have gap : (s.rx.inFrame && !s.rx.active) = true := by simp [opened, silent]
  rw [receiveTick, if_pos gap, settleNat_eq]

/-- With no transmission a `tick_bit` is the receiver's (R581). -/
theorem handle_tickBit_of_ne_tx {s : State} (h : s.seq ≠ .tx) :
    handle exec .tickBit s = receiveTick exec { s with bitTicks := s.bitTicks + 1 } := by
  have notSending : (countBit s).seq ≠ .tx := by rwa [countBit_eq]
  rw [handle, tickBit, transmitTick_of_ne_tx notSending, countBit_eq]

/-! ## The snoop -/

theorem deliverFrame_of_snoop {s : State} (h : s.rx.owner = .snoop) (n : Nat) (f : List Byte) :
    deliverFrame n f s = snoopFrame n f s.rx.ferr { s with rx := s.rx.idle } := by
  simp only [deliverFrame, h]
  rfl

theorem deliverFrame_of_discard {s : State} (h : s.rx.owner = .discard) (n : Nat) (f : List Byte) :
    deliverFrame n f s = { s with rx := s.rx.idle } := by
  simp only [deliverFrame, h]
  rfl

/-- R558: one of SNOOP_OK, SNOOP_ERR with its counter, or nothing for PI_BCOUNT. -/
theorem snoopReport_eq (code : Ferr) (s : State) : snoopReport code s =
    { s with
      cnt := { s.cnt with
        snoopErr := if code = .ok ∨ code = .piBcount then s.cnt.snoopErr
          else s.cnt.snoopErr + 1 }
      irqStatus := if code = .ok then s.irqStatus ||| 0x008#9
        else if code = .piBcount then s.irqStatus else s.irqStatus ||| 0x010#9 } := by
  cases code <;> rfl

/-- SNOOP_BUF takes the frame's stored bytes. -/
theorem snoopAt_snoopFrame {n : Nat} {f : List Byte} (stored : f.length = min n 256) (fe : Bool)
    (s : State) (i : Nat) : snoopAt (snoopFrame n f fe s) i =
      if i < min n 256 then byteAt f i else snoopAt s i := by
  have whole : f.take 256 = f := List.take_of_length_le (by omega)
  have written : snoopAt (snoopFrame n f fe s) i =
      (memRead (memWriteAll s.snoop.buf 0 f) i).getD (Config.snoopFree s.memEpoch i) := by
    rw [snoopFrame, snoopReport_eq]
    simp only [snoopAt, whole]
  rw [written, ← stored]
  split
  · rename_i inside
    have read := memRead_memWriteAll_in s.snoop.buf 0 f i inside
    rw [Nat.zero_add] at read
    rw [read, byteAt, List.getD_eq_getElem f 0 inside, Option.getD_some]
  · rw [memRead_memWriteAll_out _ _ _ _ (by omega), snoopAt]

/-- The record of an observed request: its operands, or FE_UART (R503, R558). -/
theorem snoopFrame_of_request {f : List Byte} {q : ParsedRequest} (short : f.length ≤ 256)
    (parsed : parseSlaveRequest f.length f = .ok q) (fe : Bool) (s : State) :
    snoopFrame f.length f fe s = { s with
      snoop := { len := BitVec.ofNat 9 f.length
                 ovf := false
                 uerr := fe
                 ferr := if fe then .feUart else .ok
                 res := if fe then ParseResult.zero else requestResult q
                 buf := memWriteAll s.snoop.buf 0 f }
      cnt := { s.cnt with
        frames := s.cnt.frames + 1
        snoopErr := if fe then s.cnt.snoopErr + 1 else s.cnt.snoopErr }
      irqStatus := s.irqStatus ||| (if fe then 0x010#9 else 0x008#9) } := by
  have whole : f.take 256 = f := List.take_of_length_le short
  rw [snoopFrame, snoopReport_eq]
  cases fe <;> simp [snoopParse, parsed, codeOf, whole, short]

/-- What a well-formed request is parsed to (R504, R505). -/
theorem parseSlaveRequest_of_encode {i : Instr} {f : List Byte} (wf : WellFormed i)
    (encoded : encode i = some (.frame f)) (role : frameRole i = some .request) :
    f.length ≤ 256 ∧ ∃ q, parseSlaveRequest f.length f = .ok q ∧
      (∀ a st c tail, i = .readRequest a st c tail → q = .readIntent a st c) ∧
      ∀ a st vs pad, i = .writeRequest a st vs pad → q = .writeIntent a st vs := by
  cases i with
  | readRequest a st c tail =>
    have fits : tail.length ≤ 248 := by simpa [WellFormed, Instr.wf] using wf
    obtain ⟨-, short⟩ := Laws.FrameBounds.readRequest a st c tail wf f encoded
    cases encoded
    exact ⟨short, _, parseSlaveRequest_readRequestFrame a st c fits,
      fun _ _ _ _ h => by cases h; rfl, nofun⟩
  | writeRequest a st vals pad =>
    have fits : vals.length ≤ 123 := by simpa [WellFormed, Instr.wf] using wf
    obtain ⟨-, short⟩ := Laws.FrameBounds.writeRequest a st vals pad wf f encoded
    cases encoded
    exact ⟨short, _, parseSlaveRequest_writeRequestFrame a st pad fits, nofun,
      fun _ _ _ _ h => by cases h; rfl⟩
  | _ => cases role

/-! ## The statements -/

/-- Settles O32: without a transmission the `tick_bit` is the receiver's; a frame that ends goes to
its owner, decoded or not. -/
theorem frameEndsAfterGap : Obligations.FrameEndsAfterGap := by
  refine fun s notSending => ⟨fun h => ?noGap, fun opened silent short => ?counts,
    fun opened silent long stored => ?ends⟩ <;> rw [handle_tickBit_of_ne_tx notSending]
  case noGap => exact receiveTick_of_no_gap h
  case counts =>
    exact (receiveTick_of_gap (s := { s with bitTicks := s.bitTicks + 1 }) opened silent).trans
      (if_neg (Nat.not_le_of_lt short))
  case ends =>
    exact (receiveTick_of_gap (s := { s with bitTicks := s.bitTicks + 1 }) opened silent).trans
      ((if_pos long).trans (frameEnd_eq stored))

/-- Settles O33: the snoop's record is written, then its report raises a flag and counts. -/
theorem snoopRecordsFrame : Obligations.SnoopRecordsFrame := by
  intro n f s _ stored own
  rw [deliverFrame_of_snoop own]
  refine ⟨fun i => snoopAt_snoopFrame stored _ _ i, ?_⟩
  rw [snoopFrame, snoopReport_eq, snoopParse]
  cases (if s.rx.ferr then .error .feUart else parseSlaveRequest n f :
    Except Ferr ParsedRequest) with
  | error e => rfl
  | ok q => cases q <;> rfl

/-- Settles O34: a request's instruction is the end of its frame, which the snoop parses to the
request's own operands; a frame owned by DISCARD only closes. -/
theorem observedRequestsComplete : Obligations.ObservedRequestsComplete := by
  refine ⟨fun i f s wf encoded role own => ?observed, fun i role s hrole own => ?instr,
    fun n f s own => deliverFrame_of_discard own n f⟩
  case observed =>
    obtain ⟨short, q, parsed, read, write⟩ := parseSlaveRequest_of_encode wf encoded role
    have ended : exec i s = .next (snoopFrame f.length f s.rx.ferr { s with rx := s.rx.idle }) := by
      rw [exec_of_encode_frame encoded, endFrame, deliverFrame_of_snoop own]
    refine ⟨_, ended, ?_, ?_, ?_, fun k => ?buf, ?len, ?_, ?_, ?_, fun fe => ?failed, fun fe =>
      ⟨fun a st c tail hi => ?read, fun a st vs pad hi => ?write⟩⟩
    case buf =>
      rw [snoopAt_snoopFrame (by omega), Nat.min_eq_left short]
      rfl
    all_goals rw [snoopFrame_of_request short parsed]
    case len => exact (BitVec.toNat_ofNat ..).trans (Nat.mod_eq_of_lt (by omega))
    case failed => simp [fe]
    case read => simp [fe, read a st c tail hi, requestResult]
    case write => simp [fe, write a st vs pad hi, requestResult]
  case instr =>
    obtain ⟨f, ended⟩ := WriteQueue.exec_of_frameRole hrole s
    rw [ended, endFrame, deliverFrame_of_discard own]

end Sys2Proof.Proofs.FrameDelivery
end

section
/-! PROOFS. The transmitter (43_line_and_arbiter.md R561): one bit time of a transmission, and the
level of TX in each bit time. -/

namespace Sys2Proof.Proofs.Transmission

open Sys2Proof Sys2Proof.Machine Sys2Proof.Proofs.FrameDelivery
open Sys2Proof.Proofs.WriteQueue (countBit_eq transmitTick_frame)

/-! ## One bit time -/

theorem transmitTick_of_tx {s : State} (h : s.seq = .tx) : transmitTick s =
    if s.tx.bits - 1 = 0 then openWindow s
    else if (s.tx.bits - 1) % 10 = 0 then
      emit (.txByte (byteAt s.tx.buf (s.tx.buf.length - (s.tx.bits - 1) / 10)))
        { s with tx.bits := s.tx.bits - 1 }
    else { s with tx.bits := s.tx.bits - 1 } := by
  simp only [transmitTick, h, settleNat_eq]

/-- With no frame open a `tick_bit` is the transmitter's (R581). -/
theorem handle_tickBit_of_closed {s : State} (h : s.rx.inFrame = false) :
    handle exec .tickBit s = .next (transmitTick { s with bitTicks := s.bitTicks + 1 }) := by
  obtain ⟨-, rx⟩ := transmitTick_frame { s with bitTicks := s.bitTicks + 1 }
  rw [handle, tickBit, countBit_eq]
  exact receiveTick_of_no_gap (.inl ((congrArg Receiver.inFrame rx).trans h))

/-! ## The level of TX -/

theorem txLevel_of_idle {s : State} (h : s.tx.de = false) : txLevel s = true := by
  simp [txLevel, h]

/-- Bit time `j` of character `k` is reached after `10 k + j` bit times. -/
theorem txLevel_of_sent {s : State} {k j : Nat} (driving : s.tx.de = true)
    (inside : k < s.tx.buf.length) (hj : j < 10)
    (bits : s.tx.bits = 10 * s.tx.buf.length - (10 * k + j)) :
    txLevel s = charLevel (byteAt s.tx.buf k) j := by
  have sent : 10 * s.tx.buf.length - s.tx.bits = 10 * k + j := by omega
  have character : (10 * k + j) / 10 = k := by omega
  have bitTime : (10 * k + j) % 10 = j := by omega
  simp only [txLevel, driving, if_true, sent, character, bitTime]

/-- R207: the start bit, the data bits, the stop bit. -/
theorem charLevel_eq {j : Nat} (hj : j < 10) (b : Byte) : charLevel b j =
    if j = 0 then false else if j = 9 then true else b.getLsbD (j - 1) := by
  unfold charLevel
  by_cases start : j = 0
  · rw [if_pos start, if_pos start]
  rw [if_neg start, if_neg start]
  by_cases stop : j = 9
  · rw [if_pos stop, if_neg (by omega)]
  · rw [if_neg stop, if_pos (by omega)]

/-- Settles O35: a bit time of a transmission meets no open frame, so it is the transmitter's
alone. -/
theorem transmitterSendsBackToBack : Obligations.TransmitterSendsBackToBack := by
  refine ⟨fun s sending closed _ => ?bitTime, fun s => txLevel_of_idle,
    fun s k j driving inside hj bits => ?level⟩
  case bitTime =>
    rw [handle_tickBit_of_closed closed]
    exact congrArg Host.Outcome.next
      (transmitTick_of_tx (s := { s with bitTicks := s.bitTicks + 1 }) sending)
  case level => rw [txLevel_of_sent driving inside hj bits, charLevel_eq hj]

end Sys2Proof.Proofs.Transmission
end

section
/-! PROOFS. The arbiter and the driver through every operation of the block (43_line_and_arbiter.md
R570, R571, 44_transactions.md R602): what leaves `arb`, STATE_CHG and the outputs alone, and what a
stop, foreign traffic and a `tick_ms` do to them. -/

namespace Sys2Proof.Proofs.ArbiterView

open Sys2Proof Sys2Proof.Machine Sys2Proof.Proofs.CtrlWrites Sys2Proof.Proofs.ReceivedCharacters
open Sys2Proof.Proofs.WriteQueue (isCommand_of_decodeCommand)

/-! ## The view -/

theorem mask_getLsbD (f g : IrqFlag) : f.mask.getLsbD g.bit = decide (f = g) := by
  cases f <;> cases g <;> rfl

@[simp] theorem irqSet_raiseIrq (f g : IrqFlag) (s : State) :
    irqSet g (raiseIrq f s) = (irqSet g s || decide (f = g)) := by
  simp [irqSet, mask_getLsbD]

/-- `arb`, the flag that reports its changes, and the outputs: what the operations of a turn leave
alone. -/
structure View where
  arb : Arb
  noted : Bool
  outLog : List Output

/-- The view of a state. -/
def view (s : State) : View := ⟨s.arb, irqSet .stateChg s, s.outLog⟩

/-- `arb` moves to `a`, and STATE_CHG reports it (R570). -/
def View.moveTo (a : Arb) (v : View) : View :=
  { v with arb := a, noted := v.noted || !decide (v.arb = a) }

@[simp] theorem View.moveTo_moveTo (a : Arb) (v : View) :
    (v.moveTo a).moveTo a = v.moveTo a := by
  simp [View.moveTo]

theorem arb_of_view {s t : State} (h : view t = view s) : t.arb = s.arb := congrArg View.arb h

theorem outLog_of_view {s t : State} (h : view t = view s) : t.outLog = s.outLog :=
  congrArg View.outLog h

theorem moved_of_view {a : Arb} {s t : State} (h : view t = (view s).moveTo a) :
    t.arb = a ∧ t.outLog = s.outLog ∧ (t.arb ≠ s.arb → irqSet .stateChg t = true) := by
  have moved : t.arb = a := congrArg View.arb h
  have noted : irqSet .stateChg t = (irqSet .stateChg s || !decide (s.arb = a)) :=
    congrArg View.noted h
  refine ⟨moved, congrArg View.outLog h, fun changed => ?_⟩
  rw [moved] at changed
  simp [noted, changed.symm]

/-! ## Operations of a turn -/

theorem view_raiseIrq {f : IrqFlag} (h : f ≠ .stateChg) (s : State) :
    view (raiseIrq f s) = view s := by
  simp [view, h]

@[simp] theorem view_setArb (a : Arb) (s : State) : view (setArb a s) = (view s).moveTo a := by
  unfold setArb
  split
  · rename_i same
    simp [view, View.moveTo, same]
  · rename_i other
    simp [view, View.moveTo, irqSet, IrqFlag.mask, IrqFlag.bit, other]

@[simp] theorem view_leaveTurn (q : Seq) (s : State) : view (leaveTurn q s) = view s := rfl

@[simp] theorem view_beginRead (start count : U16) (p : ReadPurpose) (s : State) :
    view (beginRead start count p s) = view s := rfl

@[simp] theorem view_beginWrite (start : U16) (vals : List U16) (p : WritePurpose) (s : State) :
    view (beginWrite start vals p s) = view s := rfl

@[simp] theorem view_endTurn (s : State) : view (endTurn s) = view s := rfl

@[simp] theorem view_completeCycle (s : State) : view (completeCycle s) = view s :=
  view_raiseIrq (by decide) _

@[simp] theorem view_cycleStart (s : State) : view (cycleStart s) = view s := by
  rcases cycleStart_cases s with ⟨-, h⟩ | ⟨-, h⟩ <;> rw [h]
  rfl

@[simp] theorem view_readIdle (s : State) : view (readIdle s) = view s := by
  unfold readIdle
  split
  · rfl
  · split
    · rfl
    · exact view_completeCycle s

@[simp] theorem view_readStep (s : State) : view (readStep s) = view s := by
  rcases readStep_cases s with h | ⟨p, -, -, h⟩ <;> simp [h]

@[simp] theorem view_readUnit (s : State) : view (readUnit s) = view s := view_readStep _

@[simp] theorem view_drainNext (s : State) : view (drainNext s) = view s := by
  rcases drainNext_cases s with ⟨_, _, -, -, h⟩ | ⟨-, h⟩ <;> simp [h]

@[simp] theorem view_drainUnit (s : State) : view (drainUnit s) = view s := view_drainNext _

@[simp] theorem view_modeStart (z : Zone) (s : State) : view (modeStart z s) = view s := by
  cases z <;> rfl

@[simp] theorem view_advance (u : TurnUnit) (s : State) : view (advance u s) = view s := by
  rcases advance_cases u s with ⟨z, -, h⟩ | h | h <;> simp [h]

@[simp] theorem view_turnStart (s : State) : view (turnStart s) = view s := view_advance _ s

@[simp] theorem view_runStep (s : State) : view (runStep s) = view s := by
  unfold runStep
  split
  · rfl
  · rfl
  · exact view_advance _ s

@[simp] theorem view_continueTurn (op : TxnOp) (r : Except Ferr (List U16)) (s : State) :
    view (continueTurn op r s) = view s := by
  match op, r with
  | .read _ .modeRead, .ok _ => exact view_runStep s
  | .read _ .modeRead, .error _ => exact view_advance _ s
  | .read _ (.partRead _ _), .ok _ | .read _ (.partRead _ _), .error _ => exact view_endTurn s
  | .write _ .modeWrite, .ok _ =>
    unfold continueTurn
    dsimp only
    split
    · exact view_advance _ s
    · exact view_runStep { s with step := s.step + 1 }
  | .write _ .modeWrite, .error _ => exact view_advance _ s
  | .write _ .drainWrite, .ok _ => exact view_drainNext s
  | .write _ .drainWrite, .error _ => exact view_readUnit s

/-! ## The end of a transaction -/

/-- The view with the stop that waits: what the result of a transaction leaves alone. -/
def stopView (s : State) : View × Option StopReason := (view s, s.stopPending)

theorem stopView_raiseIrq {f : IrqFlag} (h : f ≠ .stateChg) (s : State) :
    stopView (raiseIrq f s) = stopView s :=
  congrArg (·, s.stopPending) (view_raiseIrq h s)

theorem stopView_recordResult (c : Ferr) (s : State) :
    stopView (recordResult c s) = stopView s := by
  unfold recordResult
  dsimp only
  split
  · rfl
  · exact stopView_raiseIrq (by decide) _

theorem stopView_noteAttempt (op : TxnOp) (s : State) :
    stopView (noteAttempt op s) = stopView s := by
  cases op <;> rfl

theorem stopView_modeComplete (s : State) : stopView (modeComplete s) = stopView s := by
  unfold modeComplete
  split
  · exact stopView_raiseIrq (by decide) _
  · exact stopView_raiseIrq (by decide) _
  · rfl
  · rfl

theorem stopView_drainDone (s : State) : stopView (drainDone s) = stopView s := by
  unfold drainDone
  dsimp only
  split
  · exact stopView_raiseIrq (by decide) _
  · rfl

theorem stopView_partDone (p : Fin 8) (base : BitVec 9) (vals : List U16) (s : State) :
    stopView (partDone p base vals s) = stopView s := by
  unfold partDone
  split
  · rfl
  · dsimp only
    split
    · exact stopView_raiseIrq (by decide) _
    · rfl

theorem stopView_applyResult (op : TxnOp) (r : Except Ferr (List U16)) (s : State) :
    stopView (applyResult op r s) = stopView s := by
  match op, r with
  | .read _ .modeRead, .ok _ | .read _ .modeRead, .error _ | .read _ (.partRead _ _), .error _
  | .write _ .modeWrite, .error _ | .write _ .drainWrite, .error _ => rfl
  | .read _ (.partRead p base), .ok vals => exact stopView_partDone p base vals s
  | .write _ .modeWrite, .ok _ =>
    unfold applyResult
    dsimp only
    split
    · exact stopView_modeComplete s
    · rfl
  | .write _ .drainWrite, .ok _ => exact stopView_drainDone s

/-! ## Stops -/

@[simp] theorem view_abortTurn (reason : AbortReason) (s : State) :
    view (abortTurn reason s) = (view s).moveTo reason.target := by
  rw [abortTurn, view_setArb, view_raiseIrq (by decide)]
  rfl

@[simp] theorem view_restartReceiver (s : State) : view (restartReceiver s) = view s := rfl

@[simp] theorem target_abort (r : StopReason) : r.abort.target = .init := by cases r <;> rfl

/-- A stop leads to INIT (R577). -/
theorem view_doStop (r : StopReason) (s : State) : view (doStop r s) = (view s).moveTo .init := by
  have cleared : view { s with stopPending := none } = view s := rfl
  cases r <;> unfold doStop <;> dsimp only <;> split <;> simp [cleared]

@[simp] theorem seq_abortTurn (reason : AbortReason) (s : State) :
    (abortTurn reason s).seq = .off := by
  rw [abortTurn_eq, setArb_seq]

theorem seq_doStop (r : StopReason) (s : State) : (doStop r s).seq = .off := by
  cases r <;> unfold doStop <;> dsimp only [restartReceiver] <;> split <;> simp

theorem inTxn_doStop (r : StopReason) (s : State) : inTxn (doStop r s) = false := by
  simp [inTxn, seq_doStop]

/-- A stop request waits for a transaction in flight (R575). -/
theorem stopRequest_cases (r : StopReason) (s : State) :
    (inTxn s = true ∧ ∃ p, stopRequest r s = { s with stopPending := p }) ∨
    (inTxn s = false ∧ stopRequest r s = doStop r s) := by
  unfold stopRequest
  cases inTxn s with
  | false => exact .inr ⟨rfl, rfl⟩
  | true =>
    left
    simp only [if_true, true_and]
    split
    · exact ⟨s.stopPending, rfl⟩
    · exact ⟨some r, rfl⟩

theorem inTxn_stopRequest (r : StopReason) (s : State) :
    inTxn (stopRequest r s) = inTxn s := by
  rcases stopRequest_cases r s with ⟨-, p, h⟩ | ⟨free, h⟩
  · rw [h]; rfl
  · rw [h, inTxn_doStop, free]

theorem view_stopRequest (r : StopReason) (s : State) :
    view (stopRequest r s) = if inTxn s then view s else (view s).moveTo .init := by
  rcases stopRequest_cases r s with ⟨busy, p, h⟩ | ⟨free, h⟩
  · rw [h, busy]; rfl
  · rw [h, free, view_doStop]; rfl

/-- The end of a transaction performs the stop that waits, or leaves the arbiter alone (R607). -/
theorem txnEnd_view (r : Except Ferr (List U16)) (s : State) :
    view (txnEnd r s) = view s ∨
    s.stopPending.isSome = true ∧ view (txnEnd r s) = (view s).moveTo .init := by
  unfold txnEnd
  split
  · exact .inl rfl
  · rename_i t _
    have applied : stopView (applyResult t.op r (noteAttempt t.op
        (recordResult (codeOf r) { s with txn := none }))) = stopView s :=
      (stopView_applyResult ..).trans ((stopView_noteAttempt ..).trans (stopView_recordResult ..))
    obtain ⟨same, pending⟩ := Prod.mk_inj.1 applied
    dsimp only
    split
    · rename_i why waits
      rw [view_doStop, same]
      exact .inr ⟨by rw [← pending, waits]; rfl, rfl⟩
    · rw [view_continueTurn, same]
      exact .inl rfl

theorem txnAnswer_view (n : Nat) (f : List Byte) (fe : Bool) (s : State) :
    view (txnAnswer n f fe s) = view s ∨
    s.stopPending.isSome = true ∧ view (txnAnswer n f fe s) = (view s).moveTo .init := by
  unfold txnAnswer
  split
  · exact .inl rfl
  · split
    · exact txnEnd_view _ s
    · split
      · exact txnEnd_view _ s
      · split <;> exact txnEnd_view _ s

/-! ## CTRL -/

/-- A CTRL write performs the stops it asks for when no transaction is in flight (R575). -/
theorem ctrlEn_view (b : Bool) (s : State) : inTxn (ctrlEn b s) = inTxn s ∧
    (view (ctrlEn b s) = view s ∨ inTxn s = false ∧ (s.en = true ∧ b = false) ∧
      view (ctrlEn b s) = (view s).moveTo .init) := by
  have written : view { s with en := b } = view s ∧ inTxn { s with en := b } = inTxn s := ⟨rfl, rfl⟩
  unfold ctrlEn
  split
  · rename_i stops
    rw [inTxn_stopRequest, view_stopRequest, written.1, written.2]
    cases inTxn s with
    | true => exact ⟨rfl, .inl rfl⟩
    | false => exact ⟨rfl, .inr ⟨rfl, by simpa using stops, rfl⟩⟩
  · exact ⟨rfl, .inl rfl⟩

theorem ctrlReinit_view (b : Bool) (s : State) :
    view (ctrlReinit b s) = view s ∨ inTxn s = false ∧ b = true ∧
      view (ctrlReinit b s) = (view s).moveTo .init := by
  cases b with
  | false => exact .inl rfl
  | true =>
    rw [show ctrlReinit true s = stopRequest .reinit s from rfl, view_stopRequest]
    cases inTxn s with
    | true => exact .inl rfl
    | false => exact .inr ⟨rfl, rfl, rfl⟩

theorem view_ctrlInvalidate (b : Bool) (s : State) : view (ctrlInvalidate b s) = view s := by
  cases b <;> rfl

theorem view_ctrlRefresh (b : Bool) (s : State) : view (ctrlRefresh b s) = view s := by
  cases b <;> rfl

theorem writeCtrl_view (v : Word) (s : State) :
    view (writeCtrl v s) = view s ∨ inTxn s = false ∧
      ((s.en = true ∧ v.getLsbD 0 = false) ∨ v.getLsbD 1 = true) ∧
      view (writeCtrl v s) = (view s).moveTo .init := by
  rw [writeCtrl_eq, view_ctrlRefresh, view_ctrlInvalidate]
  obtain ⟨txn, enPart⟩ := ctrlEn_view (v.getLsbD 0) s
  rcases ctrlReinit_view (v.getLsbD 1) (ctrlEn (v.getLsbD 0) s) with reinit | ⟨free, bit, reinit⟩
  · rw [reinit]
    exact enPart.imp_right fun ⟨free, bits, stopped⟩ => ⟨free, .inl bits, stopped⟩
  · refine .inr ⟨txn ▸ free, .inr bit, ?_⟩
    rcases enPart with enPart | ⟨-, -, enPart⟩ <;> rw [reinit, enPart]
    exact View.moveTo_moveTo ..

/-! ## Host accesses -/

theorem view_finish (c : Cerr) (s : State) : view (finish c s) = view s := by
  unfold finish
  dsimp only
  split
  · rfl
  · exact view_raiseIrq (by decide) _

theorem view_reportRequest (r : Except Ferr ParsedRequest) (s : State) :
    view (reportRequest r s) = view s := by
  cases r with
  | error e => rfl
  | ok q => cases q <;> rfl

theorem view_reportAnswer (l : BitVec 9) (r : Except Ferr (List U16)) (s : State) :
    view (reportAnswer l r s) = view s := by
  cases r <;> rfl

theorem view_setSlots (z : Zone) (sl : ZoneSlots) (s : State) :
    view (setSlots z sl s) = view s := by
  cases z <;> rfl

/-- A host command leaves the line alone (R713, R722). -/
theorem exec_command_view {i : Instr} (h : isCommand i = true) {s t : State}
    (ht : exec i s = .next t) : view t = view s := by
  cases i with
  | nop | crcInit | crcByte => cases ht; exact view_finish _ _
  | crcBuf | bldRead | bldWrite | bldAck => cases ht; split <;> exact view_finish _ _
  | prsReq => cases ht; rw [view_finish, view_reportRequest]; rfl
  | prsAns => cases ht; rw [view_finish, view_reportAnswer]; rfl
  | wqPush =>
    cases ht
    split
    · exact view_finish _ _
    · split <;> exact view_finish _ _
  | modeReq => cases ht; rw [view_finish, view_setSlots]; rfl
  | _ => cases h

theorem issueCommand_view {w : Word} {s t : State} (h : issueCommand exec w s = .next t) :
    view t = view s := by
  unfold issueCommand at h
  dsimp only at h
  split at h
  · rename_i i hi
    exact (exec_command_view (isCommand_of_decodeCommand hi) h).trans rfl
  · cases h
    rw [view_finish]
    rfl

/-- Only a stop written to CTRL reaches the arbiter, and no write reaches the outputs (R575). -/
theorem busWrite_view {a : BitVec 14} {v : Word} {s t : State}
    (h : busWrite exec a v s = .next t) :
    (t.arb = s.arb ∧ t.outLog = s.outLog) ∨
    stopWrite (.busWrite a v) s ∧ inTxn s = false ∧ view t = (view s).moveTo .init := by
  unfold busWrite at h
  split at h
  · cases h; exact .inl ⟨rfl, rfl⟩
  · rename_i r hr
    split at h
    · have same := issueCommand_view h
      exact .inl ⟨arb_of_view same, outLog_of_view same⟩
    · cases h
      cases r with
      | ctrl =>
        rcases writeCtrl_view v s with same | ⟨free, bits, stopped⟩
        · exact .inl ⟨arb_of_view same, outLog_of_view same⟩
        · exact .inr ⟨⟨a, v, rfl, hr, bits⟩, free, stopped⟩
      | _ => exact .inl ⟨rfl, rfl⟩

end Sys2Proof.Proofs.ArbiterView
end

section
/-! PROOFS. The arbiter and the driver at each event (43_line_and_arbiter.md R556, R570–R577,
45_turn_sequencer.md R662, 44_transactions.md R602), and the statements of that family. -/

namespace Sys2Proof.Proofs.ArbiterEvents

open Sys2Proof Sys2Proof.Machine Sys2Proof.Proofs.ArbiterView Sys2Proof.Proofs.CtrlWrites
open Sys2Proof.Proofs.ReceivedCharacters Sys2Proof.Proofs.HostAccess
open Sys2Proof.Proofs.WriteQueue (countBit_eq transmitTick_frame transmitTick_of_ne_tx
  frameEnd_eq_deliverFrame nextEvent_snd)
open Sys2Proof.Proofs.Transmission (transmitTick_of_tx handle_tickBit_of_closed)
open Sys2Proof.Proofs.FrameDelivery (receiveTick_of_no_gap receiveTick_of_gap
  handle_tickBit_of_ne_tx)

/-! ## Characters -/

/-- A start bit changes the arbiter only in a guard or a pause (R552). -/
theorem rxStart_view (s : State) : view (rxStart s) = view s ∨
    watching s = true ∧ view (rxStart s) = (view s).moveTo .slave := by
  have heard : view { s with rx.active := true } = view s := rfl
  unfold rxStart
  split
  · exact .inl rfl
  · dsimp only
    split
    · rename_i watched
      rw [view_abortTurn, heard]
      exact .inr ⟨watched, rfl⟩
    · exact .inl rfl

/-- Foreign traffic moves the arbiter to SLAVE when EN = 1 (R556). -/
theorem observe_view (s : State) : view (observe s) = view s ∨
    s.en = true ∧ view (observe s) = (view s).moveTo .slave := by
  unfold observe
  split
  · rename_i forced
    obtain ⟨en, -⟩ := Bool.and_eq_true_iff.1 forced
    rw [view_setArb]
    refine .inr ⟨en, congrArg _ ?_⟩
    split <;> rfl
  · exact .inl rfl

/-- A byte moves the arbiter to SLAVE in a guard or a pause, and elsewhere when it is the first of a
frame that is not an answer, with EN = 1 (R554–R556, R559). -/
theorem rxByte_view (b : Byte) (ferr : Bool) (s : State) : view (rxByte b ferr s) = view s ∨
    view (rxByte b ferr s) = (view s).moveTo .slave ∧
      (watching s = true ∨
        s.tx.de = false ∧ s.en = true ∧ s.rx.inFrame = false ∧ s.seq ≠ .wait) := by
  cases driving : s.tx.de with
  | true => rw [rxByte_of_driving driving]; exact .inl rfl
  | false =>
    have joined : view (withByte b ferr s) = view s := rfl
    rw [rxByte_of_listening driving]
    cases watched : watching s with
    | true =>
      have aborted : view (abortTurn .activity (withByte b ferr s)) = (view s).moveTo .slave :=
        view_abortTurn ..
      refine .inr ⟨?_, .inl rfl⟩
      simp only [if_true]
      split
      · rcases observe_view (abortTurn .activity (withByte b ferr s)) with h | ⟨-, h⟩ <;>
          rw [h, aborted]
        exact View.moveTo_moveTo ..
      · exact aborted
    | false =>
      simp only [Bool.false_eq_true, if_false]
      split
      · rename_i opening
        simp only [Bool.and_eq_true, Bool.not_eq_true', decide_eq_true_eq] at opening
        obtain ⟨closed, own⟩ := opening
        have notWait : s.seq ≠ .wait := by
          rintro waits
          simp [withByte, receiverWithByte, closed, waits] at own
        rcases observe_view (withByte b ferr s) with h | ⟨en, h⟩ <;> rw [h]
        · exact .inl joined
        · exact .inr ⟨congrArg _ joined, .inr ⟨trivial, en, closed, notWait⟩⟩
      · exact .inl joined

/-! ## Frames and `tick_bit` -/

theorem view_snoopReport (code : Ferr) (s : State) : view (snoopReport code s) = view s := by
  cases code with
  | piBcount => rfl
  | _ => exact view_raiseIrq (by decide) _

theorem deliverFrame_view (n : Nat) (f : List Byte) (s : State) :
    view (deliverFrame n f s) = view s ∨
    s.rx.owner = .answer ∧ s.stopPending.isSome = true ∧
      view (deliverFrame n f s) = (view s).moveTo .init := by
  have closed : view (closeFrame s) = view s := rfl
  unfold deliverFrame
  split
  · exact .inl (view_snoopReport _ _)
  · rename_i own
    rw [← closed]
    exact (txnAnswer_view n f s.rx.ferr (closeFrame s)).imp_right fun ended => ⟨own, ended⟩
  · exact .inl rfl

theorem receiveTick_view {s t : State} (h : receiveTick exec s = .next t) :
    view t = view s ∨ (s.rx.inFrame = true ∧ s.rx.owner = .answer) ∧
      s.stopPending.isSome = true ∧ view t = (view s).moveTo .init := by
  by_cases noGap : s.rx.inFrame = false ∨ s.rx.active = true
  · cases (receiveTick_of_no_gap noGap).symm.trans h
    exact .inl rfl
  · obtain ⟨opened, silent⟩ : s.rx.inFrame = true ∧ s.rx.active = false := by simpa using noGap
    rw [receiveTick_of_gap opened silent] at h
    dsimp only at h
    split at h
    · obtain ⟨n, f, ended⟩ := frameEnd_eq_deliverFrame { s with rx.gap := min (s.rx.gap + 1) 255 }
      cases ended.symm.trans h
      exact (deliverFrame_view n f _).imp_right fun ⟨own, stops⟩ => ⟨⟨opened, own⟩, stops⟩
    · cases h
      exact .inl rfl

/-- While the block sends, no frame is open (R559). -/
theorem closed_of_sending {s : State} (inv : Inv s) (h : s.seq = .tx) : s.rx.inFrame = false := by
  obtain ⟨-, -, -, closed⟩ := inv.transaction.sending h
  exact closed

/-- A `tick_bit` performs the stop that waits for an answer, or gives a byte to the line in TX, with
the sequencer and the driver as they were (R561, R607). -/
theorem tickBit_view {s t : State} (inv : Inv s) (h : handle exec .tickBit s = .next t) :
    view t = view s ∨
    (s.seq = .wait ∧ s.stopPending.isSome = true ∧ view t = (view s).moveTo .init) ∨
    (s.seq = .tx ∧ t.seq = .tx ∧ t.tx.de = s.tx.de ∧ t.arb = s.arb) := by
  by_cases sending : s.seq = .tx
  · rw [handle_tickBit_of_closed (closed_of_sending inv sending),
      transmitTick_of_tx (s := { s with bitTicks := s.bitTicks + 1 }) sending] at h
    split at h
    · cases h; exact .inl rfl
    · split at h
      · cases h; exact .inr (.inr ⟨sending, sending, rfl, rfl⟩)
      · cases h; exact .inl rfl
  · rw [handle_tickBit_of_ne_tx sending] at h
    rcases receiveTick_view h with same | ⟨⟨opened, own⟩, stops⟩
    · exact .inl same
    · exact .inr (.inl ⟨(inv.receiver.answer opened).1 own, stops⟩)

/-! ## `tick_ms` -/

/-- The counters of every `tick_ms` (R580). -/
theorem countMs_eq (s : State) : countMs s =
    { s with
      quietMs := satInc s.quietMs
      cyc.sinceMs := satInc s.cyc.sinceMs
      drainMs := if inTurn s && decide (s.unit = .drain) then satInc s.drainMs else s.drainMs
      msTicks := s.msTicks + 1 } := by
  simp only [countMs, settleNat_eq]

/-- The conditions of R572. -/
def quiescent (s : State) : Prop :=
  s.en = true ∧ s.arb = .slave ∧ s.cfg.tQuiet.toNat < s.quietMs ∧ s.rx.active = false ∧
    s.rx.inFrame = false

theorem offTick_of_quiescent {s : State} (h : quiescent s) :
    offTick s = turnStart (setArb .master s) := by
  obtain ⟨en, slave, quiet, silent, closed⟩ := h
  simp [offTick, en, slave, quiet, silent, closed]

theorem offTick_of_not_quiescent {s : State} (h : ¬quiescent s) : offTick s = s := by
  refine if_neg fun ready => h ?_
  simpa [quiescent, and_assoc] using ready

theorem lineIdle_iff (s : State) : lineIdle s = true ↔
    s.cfg.tIdle.toNat ≤ s.quietMs ∧ s.rx.active = false ∧ s.rx.inFrame = false := by
  simp [lineIdle, and_assoc]

theorem view_listenTick (s : State) : view (listenTick s) = view s := by
  unfold listenTick
  rw [settleNat_eq]
  dsimp only
  split
  · exact view_turnStart _
  · rfl

theorem view_pauseTick (s : State) : view (pauseTick s) = view s := by
  unfold pauseTick
  rw [settleNat_eq]
  dsimp only
  split
  · exact view_runStep _
  · rfl

theorem waitTick_view (s : State) : view (waitTick s) = view s ∨
    s.stopPending.isSome = true ∧ view (waitTick s) = (view s).moveTo .init := by
  unfold waitTick
  rw [settleNat_eq]
  dsimp only
  split
  · split <;> exact txnEnd_view _ _
  · exact .inl rfl

/-- A `tick_ms` enters MASTER, starts a transmission, or performs the stop that waits for a
transaction that times out (R572, R602, R607). -/
theorem tickMs_view (s : State) : view (tickMs s) = view s ∨
    (s.seq = .off ∧ quiescent (countMs s) ∧ view (tickMs s) = (view s).moveTo .master) ∨
    (s.seq = .guard ∧ lineIdle (countMs s) = true ∧ tickMs s = txStart (countMs s)) ∨
    (s.seq = .wait ∧ s.stopPending.isSome = true ∧ view (tickMs s) = (view s).moveTo .init) := by
  have counted : view (countMs s) = view s := by rw [countMs_eq]; rfl
  have pending : (countMs s).stopPending = s.stopPending := by rw [countMs_eq]
  unfold tickMs
  cases s.seq with
  | off =>
    by_cases ready : quiescent (countMs s)
    · refine .inr (.inl ⟨rfl, ready, ?_⟩)
      simp only [offTick_of_quiescent ready, view_turnStart, view_setArb, counted]
    · exact .inl ((congrArg view (offTick_of_not_quiescent ready)).trans counted)
  | listen => exact .inl ((view_listenTick _).trans counted)
  | guard =>
    by_cases idle : lineIdle (countMs s) = true
    · exact .inr (.inr (.inl ⟨rfl, idle, if_pos idle⟩))
    · exact .inl ((congrArg view (if_neg idle : guardTick (countMs s) = _)).trans counted)
  | tx => exact .inl counted
  | wait =>
    rw [← counted, ← pending]
    exact (waitTick_view (countMs s)).imp_right fun stops => .inr (.inr ⟨rfl, stops⟩)
  | pause => exact .inl ((view_pauseTick _).trans counted)

/-! ## The statements -/

/-- Settles O36: the OFF handler tests the conditions on the state just counted, and a turn that
starts leaves the arbiter in MASTER. -/
theorem masterOnlyAfterQuiescence : Obligations.MasterOnlyAfterQuiescence := by
  intro s off notMaster u ready
  have counted : countMs s = u := by
    rw [countMs_eq]
    simp [u, inTurn, off, satInc]
  have ticked : handle exec .tickMs s = .next (offTick u) := by
    simp [handle, tickMs, off, counted]
  refine ⟨offTick u, ticked, ?_⟩
  by_cases h : quiescent u
  · obtain ⟨-, slave, -⟩ := id h
    have entered : view (offTick u) = (view u).moveTo .master := by
      rw [offTick_of_quiescent h, view_turnStart, view_setArb]
    obtain ⟨master, -, noted⟩ := moved_of_view entered
    refine ⟨iff_of_true master h, fun _ => ⟨noted (by simp [master, slave]), ?_⟩,
      fun no => absurd h no⟩
    rw [offTick_of_quiescent h, setArb_eq, slave]
    rfl
  · rw [offTick_of_not_quiescent h]
    exact ⟨iff_of_false notMaster h, fun yes => absurd yes h, fun _ => rfl⟩

/-! ## Stops -/

/-- The state after a stop, but for an abort and a restart of the receiver (R577). -/
def stopped (s : State) : State :=
  { s with
    stopPending := none, seq := .off, unit := .mode0, step := 0, arb := .init
    irqStatus := s.irqStatus ||| (if s.arb = .init then 0#9 else 0x020#9) }

/-- The state after a stop in a turn, which is aborted (R577, R662). -/
def stoppedTurn (r : StopReason) (s : State) : State :=
  { stopped s with
    lastAbort := r.abort, txnDiscard := false, txn := none
    cnt := { s.cnt with aborts := s.cnt.aborts + 1 }
    irqStatus := (stopped s).irqStatus ||| 0x004#9 }

/-- What REINIT adds to a stop (R577). -/
def afterStop (r : StopReason) (s : State) : State :=
  match r with
  | .stop => s
  | .reinit => restartReceiver s

theorem abortTurn_stop (r : StopReason) (s : State) :
    abortTurn r.abort { s with stopPending := none } = stoppedTurn r s := by
  rw [abortTurn_eq, setArb_eq, target_abort]
  by_cases initial : s.arb = .init <;>
    simp [stoppedTurn, stopped, initial, IrqFlag.mask, IrqFlag.bit, BitVec.or_assoc,
      BitVec.or_comm 0x004#9]

theorem setArb_init_stop (s : State) :
    setArb .init (leaveTurn .off { s with stopPending := none }) = stopped s := by
  rw [setArb_eq]
  by_cases initial : s.arb = .init <;>
    simp [leaveTurn, stopped, initial, IrqFlag.mask, IrqFlag.bit]

/-- A stop aborts the turn in progress, or leaves LISTEN or OFF (R577). -/
theorem doStop_eq (r : StopReason) (s : State) :
    doStop r s = afterStop r (if inTurn s then stoppedTurn r s else stopped s) := by
  have turn : inTurn { s with stopPending := none } = inTurn s := rfl
  unfold doStop
  dsimp only
  rw [turn, abortTurn_stop, setArb_init_stop]
  cases r <;> rfl

theorem stopRequest_of_txn {s : State} (h : inTxn s = true) (r : StopReason) :
    stopRequest r s = { s with
      stopPending := if s.stopPending = some .reinit then some .reinit else some r } := by
  rw [stopRequest, if_pos h]
  split
  · rename_i waits
    rw [← waits]
  · rfl

theorem stopRequest_of_no_txn {s : State} (h : inTxn s = false) (r : StopReason) :
    stopRequest r s = doStop r s := by
  rw [stopRequest, h]
  rfl

/-- EN written 0 alone, from 1, is a stop request (R575). -/
theorem writeCtrl_stop {v : Word} {s : State} (hv : v.extractLsb' 0 4 = 0#4) (en : s.en = true) :
    writeCtrl v s = stopRequest .stop { s with en := false } := by
  have bit : ∀ {i}, i < 4 → v.getLsbD (0 + i) = (0#4).getLsbD i := getLsbD_of_extractLsb'_eq hv
  rw [writeCtrl_eq, bit (i := 0) (by decide), bit (i := 1) (by decide), bit (i := 2) (by decide),
    bit (i := 3) (by decide)]
  simp [ctrlEn, en]

/-- REINIT written alone, with EN kept, is a stop request (R576). -/
theorem writeCtrl_reinit {v : Word} {s : State}
    (hv : v.extractLsb' 0 4 = if s.en then 3#4 else 2#4) :
    writeCtrl v s = stopRequest .reinit s := by
  have bit : ∀ {i}, i < 4 → v.getLsbD (0 + i) = (if s.en then 3#4 else 2#4).getLsbD i :=
    getLsbD_of_extractLsb'_eq hv
  have kept : s.en = v.getLsbD 0 := by rw [bit (i := 0) (by decide)]; cases s.en <;> rfl
  have reinit : v.getLsbD 1 = true := by rw [bit (i := 1) (by decide)]; cases s.en <;> rfl
  have invalidate : v.getLsbD 2 = false := by rw [bit (i := 2) (by decide)]; cases s.en <;> rfl
  have refresh : v.getLsbD 3 = false := by rw [bit (i := 3) (by decide)]; cases s.en <;> rfl
  rw [writeCtrl_of_en_kept kept, reinit, invalidate, refresh]
  rfl

/-- Disabled and with no transaction in flight, the block is at rest in INIT (R573, R575). -/
theorem stopped_of_disabled {s : State} (inv : Inv s) (free : inTxn s = false)
    (disabled : s.en = false) : stopped s = s ∧ inTurn s = false := by
  have noStop : s.stopPending = none := by
    by_contra waits
    have busy := inv.arbiter.stop (Option.isSome_iff_ne_none.2 waits)
    exact absurd (free.symm.trans busy) (by decide)
  have initial : s.arb = .init :=
    (inv.arbiter.enable disabled).resolve_right (by simp [noStop])
  have off : s.seq = .off := by
    by_contra running
    exact absurd (initial.symm.trans (inv.arbiter.master.2 running)) (by decide)
  obtain ⟨unit, step⟩ := inv.arbiter.rest (.inl off)
  refine ⟨?_, by simp [inTurn, off]⟩
  cases s
  simp_all [stopped]

/-- Settles O37: a CTRL write with one request is that stop request, which waits for a transaction
or is performed. -/
theorem stopsWaitAndReturnToInit : Obligations.StopsWaitAndReturnToInit := by
  refine ⟨fun v s hv en => ?stop, fun v s hv => ?reinit, fun s => ⟨fun turn => ?_, fun rest => ?_⟩⟩
  case stop =>
    rw [handle_busWrite_ctrl, writeCtrl_stop hv en]
    exact ⟨fun busy => congrArg _ (stopRequest_of_txn (s := { s with en := false }) busy .stop),
      fun free => congrArg _ (stopRequest_of_no_txn (s := { s with en := false }) free .stop)⟩
  case reinit =>
    rw [handle_busWrite_ctrl, writeCtrl_reinit hv]
    refine ⟨fun busy => ?_, fun free => congrArg _ (stopRequest_of_no_txn free .reinit),
      fun free disabled inv => ?_⟩
    · simp [stopRequest_of_txn busy]
    · obtain ⟨same, rest⟩ := stopped_of_disabled inv free disabled
      rw [stopRequest_of_no_txn free, doStop_eq, rest, same]
      rfl
  · rw [doStop_eq, doStop_eq, turn]
    exact ⟨rfl, rfl⟩
  · rw [doStop_eq, doStop_eq, rest]
    exact ⟨rfl, rfl⟩

/-! ## The rows of the table (R570) -/

section Rows

variable {s : State} (inv : Inv s)

include inv

theorem master_of_watching (h : watching s = true) : s.arb = .master := by
  refine inv.arbiter.master.2 ?_
  rcases (watching_iff s).1 h with waits | waits <;> simp [waits]

theorem row_of_rxStart (watched : watching s = true) : arbChange .rxStart s s.arb .slave := by
  rw [master_of_watching inv watched]
  exact .inr ⟨.inr rfl, (watching_iff s).1 watched⟩

/-- A byte that forces SLAVE comes in a guard or a pause, in INIT, or in LISTEN: in TX the block
drives, and in WAIT the frame is an answer. -/
theorem row_of_rxByte (b : Byte) (ferr : Bool) (other : s.arb ≠ .slave)
    (heard : watching s = true ∨
      s.tx.de = false ∧ s.en = true ∧ s.rx.inFrame = false ∧ s.seq ≠ .wait) :
    arbChange (.rxByte b ferr) s s.arb .slave := by
  rcases heard with watched | ⟨silent, en, closed, notWait⟩
  · rw [master_of_watching inv watched]
    exact .inr ⟨.inl ⟨b, ferr, rfl⟩, (watching_iff s).1 watched⟩
  · cases harb : s.arb with
    | slave => exact absurd harb other
    | init => exact ⟨⟨b, ferr, rfl⟩, en, closed⟩
    | master =>
      cases hseq : s.seq with
      | off => exact absurd hseq (inv.arbiter.master.1 harb)
      | listen => exact .inl ⟨⟨b, ferr, rfl⟩, hseq, en, closed⟩
      | guard => exact .inr ⟨.inl ⟨b, ferr, rfl⟩, .inl hseq⟩
      | tx => exact absurd (silent.symm.trans (inv.transaction.de.2 hseq)) (by decide)
      | wait => exact absurd hseq notWait
      | pause => exact .inr ⟨.inl ⟨b, ferr, rfl⟩, .inr hseq⟩

theorem row_of_waiting_stop {e : Event} (tick : e = .tickMs ∨ e = .tickBit) (waits : s.seq = .wait)
    (pending : s.stopPending.isSome = true) : arbChange e s s.arb .init := by
  rw [inv.arbiter.master.2 (by simp [waits])]
  exact .inr (.inr ⟨tick, waits, pending⟩)

end Rows

theorem row_of_quiescent {s : State} (ready : quiescent (countMs s)) :
    arbChange .tickMs s s.arb .master := by
  rw [countMs_eq] at ready
  obtain ⟨en, slave, quiet, silent, closed⟩ := ready
  rw [show s.arb = .slave from slave]
  exact ⟨rfl, en, silent, closed, quiet⟩

theorem row_of_stopWrite {e : Event} {s : State} (other : s.arb ≠ .init) (stop : stopWrite e s)
    (free : inTxn s = false) : arbChange e s s.arb .init := by
  cases harb : s.arb with
  | init => exact absurd harb other
  | slave => exact .inr stop
  | master => exact .inr (.inl ⟨stop, free⟩)

theorem row_of_reset {s : State} (other : s.arb ≠ .init) : arbChange .reset s s.arb .init := by
  cases harb : s.arb with
  | init => exact absurd harb other
  | slave => exact .inl rfl
  | master => exact .inl rfl

/-- A move that is a row of the table reports itself (R570). -/
theorem tabled_of_move {e : Event} {s t : State} {a : Arb} (changed : t.arb ≠ s.arb)
    (moved : view t = (view s).moveTo a) (row : s.arb ≠ a → arbChange e s s.arb a) :
    arbChange e s s.arb t.arb ∧ (e ≠ .reset → irqSet .stateChg t = true) := by
  obtain ⟨arb, -, noted⟩ := moved_of_view moved
  exact ⟨arb ▸ row fun same => changed (arb.trans same.symm), fun _ => noted changed⟩

/-- The invariant is about the block, not about what waits in the script. -/
theorem inv_script {s : State} (inv : Inv s) (l : List Event) : Inv { s with script := l } := by
  obtain ⟨memory, range, receiver, transaction, arbiter⟩ := inv
  exact ⟨{ memory with }, { range with }, { receiver with }, { transaction with },
    { arbiter with }⟩

/-- Every event that changes the arbiter is a row of the table. -/
theorem arbChange_of_handle {s t : State} {e : Event} (inv : Inv s) (h : handle exec e s = .next t)
    (changed : t.arb ≠ s.arb) :
    arbChange e s s.arb t.arb ∧ (e ≠ .reset → irqSet .stateChg t = true) := by
  cases e with
  | tickMs =>
    cases h
    rcases tickMs_view s with same | ⟨-, ready, moved⟩ | ⟨-, -, sent⟩ | ⟨waits, pending, moved⟩
    · exact absurd (arb_of_view same) changed
    · exact tabled_of_move changed moved fun _ => row_of_quiescent ready
    · rw [sent, countMs_eq] at changed
      exact absurd rfl changed
    · exact tabled_of_move changed moved fun _ => row_of_waiting_stop inv (.inl rfl) waits pending
  | tickBit =>
    rcases tickBit_view inv h with same | ⟨waits, pending, moved⟩ | ⟨-, -, -, same⟩
    · exact absurd (arb_of_view same) changed
    · exact tabled_of_move changed moved fun _ => row_of_waiting_stop inv (.inr rfl) waits pending
    · exact absurd same changed
  | rxStart =>
    cases h
    rcases rxStart_view s with same | ⟨watched, moved⟩
    · exact absurd (arb_of_view same) changed
    · exact tabled_of_move changed moved fun _ => row_of_rxStart inv watched
  | rxByte b ferr =>
    cases h
    rcases rxByte_view b ferr s with same | ⟨moved, heard⟩
    · exact absurd (arb_of_view same) changed
    · exact tabled_of_move changed moved fun other => row_of_rxByte inv b ferr other heard
  | busWrite a v =>
    rcases busWrite_view h with ⟨same, -⟩ | ⟨stop, free, moved⟩
    · exact absurd same changed
    · exact tabled_of_move changed moved fun other => row_of_stopWrite other stop free
  | busRead a => cases h; exact absurd rfl changed
  | reset => cases h; exact ⟨row_of_reset changed.symm, fun no => absurd rfl no⟩

/-- Settles O38: the event is handled in the state it finds, but for the script. -/
theorem arbiterChangesOnlyAsTabled : Obligations.ArbiterChangesOnlyAsTabled := by
  intro s t inv h changed
  unfold step at h
  rw [nextEvent_snd] at h
  have row := arbChange_of_handle (inv_script inv s.script.tail) h changed
  exact row

/-- What an event that gives a byte to the line is, and what it leaves (R571, R602). -/
theorem transmits_of_handle {s t : State} {e : Event} {b : Byte} (inv : Inv s)
    (h : handle exec e s = .next t) (sent : t.outLog = s.outLog ++ [.txByte b]) :
    t.arb = s.arb ∧ t.seq = .tx ∧ t.tx.de = true ∧
    (e = .tickMs ∧ s.seq = .guard ∧ lineIdle (countMs s) = true ∨ e = .tickBit ∧ s.seq = .tx) := by
  have kept {u : State} (same : u.outLog = s.outLog) : u.outLog ≠ s.outLog ++ [.txByte b] := by
    simp [same]
  have moved {u : State} {a : Arb} (h : view u = (view s).moveTo a) :
      u.outLog ≠ s.outLog ++ [.txByte b] := by
    obtain ⟨-, same, -⟩ := moved_of_view h
    exact kept same
  cases e with
  | tickMs =>
    cases h
    rcases tickMs_view s with same | ⟨-, -, entered⟩ | ⟨waits, idle, started⟩ | ⟨-, -, stop⟩
    · exact absurd sent (kept (outLog_of_view same))
    · exact absurd sent (moved entered)
    · rw [started]
      refine ⟨?_, rfl, rfl, .inl ⟨rfl, waits, idle⟩⟩
      rw [countMs_eq]
      rfl
    · exact absurd sent (moved stop)
  | tickBit =>
    rcases tickBit_view inv h with same | ⟨-, -, stop⟩ | ⟨sending, still, driver, arb⟩
    · exact absurd sent (kept (outLog_of_view same))
    · exact absurd sent (moved stop)
    · exact ⟨arb, still, driver.trans (inv.transaction.de.2 sending), .inr ⟨rfl, sending⟩⟩
  | rxStart =>
    cases h
    rcases rxStart_view s with same | ⟨-, h⟩
    · exact absurd sent (kept (outLog_of_view same))
    · exact absurd sent (moved h)
  | rxByte c ferr =>
    cases h
    rcases rxByte_view c ferr s with same | ⟨h, -⟩
    · exact absurd sent (kept (outLog_of_view same))
    · exact absurd sent (moved h)
  | busWrite a v =>
    rcases busWrite_view h with ⟨-, same⟩ | ⟨-, -, h⟩
    · exact absurd sent (kept same)
    · exact absurd sent (moved h)
  | busRead a => cases h; simp [busRead] at sent
  | reset => cases h; exact absurd sent (kept rfl)

/-- Settles O39: in GUARD and in TX the invariant has the arbiter in MASTER, and the event leaves it
there. -/
theorem transmitsOnlyInMaster : Obligations.TransmitsOnlyInMaster := by
  intro s t b inv h sent
  unfold step at h
  rw [nextEvent_snd] at h
  obtain ⟨arb, sending, driver, event⟩ :=
    transmits_of_handle (inv_script inv s.script.tail) h sent
  have master : s.arb = .master := inv.arbiter.master.2 fun off => by
    rcases event with ⟨-, waits, -⟩ | ⟨-, sends⟩
    · exact absurd (off.symm.trans waits) (by decide)
    · exact absurd (off.symm.trans sends) (by decide)
  refine ⟨master, arb.trans master, sending, driver, event.imp_left ?_⟩
  rintro ⟨tick, waits, idle⟩
  rw [countMs_eq] at idle
  exact ⟨tick, waits, (lineIdle_iff _).1 idle⟩

end Sys2Proof.Proofs.ArbiterEvents
end

section
/-! PROOFS. How a transaction begins, and what ends it (44_transactions.md R601–R606): the request and
its guard, the frame that ends in the answer window, and the timeout. -/

namespace Sys2Proof.Proofs.AnswerWindow

open Sys2Proof Sys2Proof.Machine Sys2Proof.Proofs.FrameEncoder
open Sys2Proof.Proofs.FrameDecoder (parseAnswer_of_matching)
open Sys2Proof.Proofs.WireFrames (checksum_of_framed)
open Sys2Proof.Proofs.ArbiterEvents (countMs_eq lineIdle_iff)

/-! ## The frames -/

theorem valueBytes_eq_flatMap (vals : List U16) :
    valueBytes vals = vals.flatMap (fun v => [hi v, lo v]) := by
  induction vals with
  | nil => rfl
  | cons v vs ih => rw [valueBytes, ih]; rfl

theorem framed_pad (checked : List Byte) (b : Byte) :
    framed checked [b] = checked ++ [lo (crc16 checked), hi (crc16 checked), b] := by
  rw [framed, crcBytes_eq, List.append_assoc]
  rfl

/-- A built answer parses to its own values (R458, R510). -/
theorem parseAnswer_answerFrame (a : Byte) {vals : List U16} (nonempty : 1 ≤ vals.length)
    (fits : vals.length ≤ 125) :
    parseAnswer (answerFrame a vals).length (answerFrame a vals) a 0x03#8 vals.length =
      .ok vals := by
  have length : (answerFrame a vals).length = 5 + 2 * vals.length := by
    rw [answerFrame, framed_length, List.length_append, valueBytes_length, List.length_nil]
    simp only [List.length_cons, List.length_nil]
    omega
  have bytes : (byteAt (answerFrame a vals) 2).toNat = 2 * vals.length :=
    (BitVec.toNat_ofNat ..).trans (by omega)
  have crc := checksum_of_framed (checked := [a, 0x03#8, BitVec.ofNat 8 (2 * vals.length)] ++
    valueBytes vals) (k := 3 + 2 * vals.length) (by simp; omega) []
  have values : valuesOf vals.length ((answerFrame a vals).drop 3) = vals := by
    simp [answerFrame, framed]
  have low : 5 + 2 * vals.length - 2 = 3 + 2 * vals.length := by omega
  have high : 5 + 2 * vals.length - 1 = 3 + 2 * vals.length + 1 := by omega
  rw [length, parseAnswer_of_matching (a := a) (fn := 0x03#8) (by omega) (by omega) rfl rfl, bytes,
    low, high, values, if_neg (not_not.2 rfl), if_neg (not_not.2 rfl)]
  exact if_neg (not_not.2 crc)

/-! ## The answer window -/

/-- The result with which a frame of the answer window ends a transaction (R503, R605). -/
def frameResult (n : Nat) (f : List Byte) (x : Txn) (s : State) : Except Ferr (List U16) :=
  if s.rx.ferr = true then .error .feUart
  else match x.op with
    | .read c _ => parseAnswer n f x.addr 0x03#8 c.toNat
    | .write _ _ => if n = 8 ∧ f.take 8 = s.ackExp.take 8 then .ok [] else .error .ackMismatch

variable {s : State} {x : Txn}

/-- A frame that ends in the answer window ends the transaction, whoever sent it (R605). -/
theorem deliverFrame_of_answer (own : s.rx.owner = .answer) (hx : s.txn = some x) (n : Nat)
    (f : List Byte) :
    deliverFrame n f s = txnEnd (frameResult n f x s) (closeFrame s) := by
  have delivered : deliverFrame n f s = txnAnswer n f s.rx.ferr (closeFrame s) := by
    simp only [deliverFrame, own]
  have kept : (closeFrame s).txn = some x ∧ (closeFrame s).ackExp = s.ackExp := ⟨hx, rfl⟩
  obtain ⟨a, st, op⟩ := x
  rw [delivered, txnAnswer, frameResult]
  simp only [kept]
  split
  · rfl
  · cases op with
    | read => rfl
    | write =>
      by_cases matched : n = 8 ∧ f.take 8 = s.ackExp.take 8
      · simp only [ackMatch, if_pos matched]
      · simp only [ackMatch, if_neg matched]

/-- READ_ANSWER with the count asked, from the address asked (R510). -/
theorem exec_readAnswer {a : Byte} {st : U16} {vals : List U16} {p : ReadPurpose}
    (nonempty : 1 ≤ vals.length) (fits : vals.length ≤ 125) (own : s.rx.owner = .answer)
    (clean : s.rx.ferr = false)
    (hx : s.txn = some { addr := a, start := st, op := .read (BitVec.ofNat 16 vals.length) p }) :
    exec (.readAnswer a vals) s = .next (txnEnd (.ok vals) (closeFrame s)) := by
  have count : (BitVec.ofNat 16 vals.length).toNat = vals.length :=
    (BitVec.toNat_ofNat ..).trans (Nat.mod_eq_of_lt (by omega))
  have accepted : frameResult (answerFrame a vals).length (answerFrame a vals)
      { addr := a, start := st, op := .read (BitVec.ofNat 16 vals.length) p } s = .ok vals := by
    simp only [frameResult, clean, Bool.false_eq_true, if_false, count]
    exact parseAnswer_answerFrame a nonempty fits
  exact congrArg Host.Outcome.next ((deliverFrame_of_answer own hx _ _).trans (by rw [accepted]))

/-- WRITE_ACK with the bytes of the ack expected (R515). -/
theorem exec_writeAck {a : Byte} {st : U16} {n : Byte} {vals : List U16} {p : WritePurpose}
    (own : s.rx.owner = .answer) (clean : s.rx.ferr = false)
    (hx : s.txn = some { addr := a, start := st, op := .write vals p })
    (expected : s.ackExp = ackFrame a st n) :
    exec (.writeAck a st n) s = .next (txnEnd (.ok []) (closeFrame s)) := by
  have accepted : frameResult (ackFrame a st n).length (ackFrame a st n)
      { addr := a, start := st, op := .write vals p } s = .ok [] := by
    simp [frameResult, clean, expected]
  exact congrArg Host.Outcome.next ((deliverFrame_of_answer own hx _ _).trans (by rw [accepted]))

/-! ## The statements -/

/-- Settles O40: the built frames are their heads with the checksum and the pad. -/
theorem transactionBegins : Obligations.TransactionBegins := by
  refine ⟨fun st c p s => ?_, fun st vals p s => ?_⟩
  · rw [exec, execMasterReadAnalog, beginRead, buildReadRequest, framed_pad]
    rfl
  · rw [exec, execMasterWriteAnalog, beginWrite, ackFrame_eq, buildWriteRequest, framed_pad,
      valueBytes_eq_flatMap]
    rfl

/-- Settles O41: the GUARD handler tests the line on the state just counted. -/
theorem guardSendsOnQuietLine : Obligations.GuardSendsOnQuietLine := by
  intro s guarding u
  have counted : countMs s = u := by
    rw [countMs_eq]
    simp [u, inTurn, guarding, satInc]
  have ticked : handle exec .tickMs s = .next (guardTick u) := by
    simp [handle, tickMs, guarding, counted]
  rw [ticked]
  refine ⟨fun quiet => ?_, fun busy => ?_⟩
  · exact congrArg _ (if_pos ((lineIdle_iff u).2 quiet))
  · exact congrArg _ (if_neg (mt (lineIdle_iff u).1 busy))

/-- Settles O42: the WAIT handler counts `txn_ms`, then compares it. -/
theorem answerTimesOut : Obligations.AnswerTimesOut := by
  intro s waiting n u
  have counted : { countMs s with txnMs := n } = u := by
    rw [countMs_eq]
    simp [u, inTurn, waiting, satInc]
  have ticked : handle exec .tickMs s = .next (if s.cfg.tTxn.toNat ≤ n then
      txnEnd (.error .teTimeout)
        (if u.rx.inFrame && decide (u.rx.owner = .answer) then { u with rx.owner := .discard }
         else u)
      else u) := by
    rw [← counted, countMs_eq]
    simp only [handle, tickMs, waiting, waitTick, settleNat_eq, countMs_eq]
    rfl
  rw [ticked]
  refine ⟨fun early => congrArg _ (if_neg (by omega)), fun late => ?_⟩
  rw [if_pos late]
  by_cases opened : s.rx.inFrame = true ∧ s.rx.owner = .answer <;> simp [u, opened]

end Sys2Proof.Proofs.AnswerWindow
end

section
/-! PROOFS. The result of a transaction (44_transactions.md R607, 45_turn_sequencer.md R666–R683): its
record, what it changes by purpose, and the stop that waited for it. -/

namespace Sys2Proof.Proofs.TransactionResult

open Sys2Proof Sys2Proof.Machine Sys2Proof.Proofs.ArbiterView
open Sys2Proof.Proofs.ArbiterEvents (doStop_eq afterStop stoppedTurn)

variable {s : State} {x : Txn}

/-! ## The result recorded and applied -/

/-- The record of a result (R607). -/
def recorded (c : Ferr) (s : State) : State :=
  { s with
    lastErr := c
    cnt := if c = .ok then { s.cnt with txnOk := s.cnt.txnOk + 1 }
      else { s.cnt with txnFail := s.cnt.txnFail + 1 }
    irqStatus := if c = .ok then s.irqStatus else s.irqStatus ||| 0x002#9 }

theorem recordResult_eq (c : Ferr) (s : State) : recordResult c s = recorded c s := by
  unfold recordResult recorded
  dsimp only
  split <;> rfl

/-- The state in which the result is recorded and applied, before the stop that waits or the
continuation (R607). -/
def resultState (op : TxnOp) (r : Except Ferr (List U16)) (s : State) : State :=
  applyResult op r (noteAttempt op (recorded (codeOf r) { s with txn := none }))

theorem stopPending_resultState (op : TxnOp) (r : Except Ferr (List U16)) (s : State) :
    (resultState op r s).stopPending = s.stopPending := by
  have applied : stopView (resultState op r s) =
      stopView (recordResult (codeOf r) { s with txn := none }) := by
    rw [recordResult_eq]
    exact (stopView_applyResult ..).trans (stopView_noteAttempt ..)
  exact congrArg Prod.snd (applied.trans (stopView_recordResult ..))

theorem txnEnd_of_free (hx : s.txn = some x) (free : s.stopPending = none)
    (r : Except Ferr (List U16)) :
    txnEnd r s = continueTurn x.op r (resultState x.op r s) := by
  have pending := (stopPending_resultState x.op r s).trans free
  rw [resultState, ← recordResult_eq] at pending ⊢
  simp only [txnEnd, hx, pending]

theorem txnEnd_of_stop {why : StopReason} (hx : s.txn = some x)
    (waits : s.stopPending = some why) (r : Except Ferr (List U16)) :
    txnEnd r s = doStop why (resultState x.op r s) := by
  have pending := (stopPending_resultState x.op r s).trans waits
  rw [resultState, ← recordResult_eq] at pending ⊢
  simp only [txnEnd, hx, pending]

theorem recorded_of_failure {e : Ferr} (h : e ≠ .ok) (s : State) : recorded e s =
    { s with
      lastErr := e
      cnt := { s.cnt with txnFail := s.cnt.txnFail + 1 }
      irqStatus := s.irqStatus ||| 0x002#9 } := by
  simp only [recorded, if_neg h]

/-- A failure is recorded; beyond that it ends a partition read's discard, or asks for a refresh after
a write (R607, R671, R677, R683, R684). -/
theorem resultState_error_frame (op : TxnOp) (e : Ferr) (s : State) : ∃ discard refresh,
    resultState op (.error e) s = { recorded e { s with txn := none } with
      txnDiscard := discard, cyc := { s.cyc with refreshReq := refresh } } := by
  match op with
  | .read _ .modeRead | .read _ (.partRead _ _) | .write _ .modeWrite | .write _ .drainWrite =>
    exact ⟨_, _, rfl⟩

theorem resultState_write_error (vals : List U16) (p : WritePurpose) (e : Ferr) (s : State) :
    resultState (.write vals p) (.error e) s =
      { recorded e { s with txn := none } with cyc := { s.cyc with refreshReq := true } } := by
  cases p <;> rfl

/-- The state in which a read that succeeded is recorded (R607). -/
def answered (s : State) : State :=
  { s with lastErr := .ok, txn := none, cnt := { s.cnt with txnOk := s.cnt.txnOk + 1 } }

/-- The state in which the ack of a write is recorded (R607, R684). -/
def acknowledged (s : State) : State :=
  { answered s with cyc := { s.cyc with refreshReq := true } }

theorem resultState_partRead (c : U16) (p : Fin 8) (base : BitVec 9) (vals : List U16)
    (s : State) : resultState (.read c (.partRead p base)) (.ok vals) s =
      { partDone p base vals (answered s) with txnDiscard := false } := rfl

theorem resultState_write_ok (vals : List U16) (p : WritePurpose) (vs : List U16) (s : State) :
    resultState (.write vals p) (.ok vs) s =
      applyResult (.write vals p) (.ok vs) (acknowledged s) := rfl

/-! ## What a result changes -/

theorem drainDone_eq (s : State) : drainDone s = { s with
    wq := s.wq.tail
    irqStatus := if s.wq.tail = [] then s.irqStatus ||| 0x080#9 else s.irqStatus } := by
  unfold drainDone
  cases h : s.wq.tail <;> rfl

theorem applyResult_modeWrite_of_more (vals vs : List U16) {s : State}
    (more : s.step ≠ lastStep s.run) : applyResult (.write vals .modeWrite) (.ok vs) s = s :=
  if_neg more

theorem applyResult_modeWrite_of_last (vals vs : List U16) {s : State}
    (last : s.step = lastStep s.run) :
    applyResult (.write vals .modeWrite) (.ok vs) s = modeComplete s := if_pos last

/-- A sub-slot after a sequence: one latched and not rewritten waits no longer (R670). -/
def cleared (latched : Bool) (b : SubSlot) : SubSlot :=
  if latched = true ∧ b.dirty = false then { b with pend := false } else b

theorem cleared_code (latched : Bool) (b : SubSlot) : (cleared latched b).code = b.code := by
  unfold cleared
  split <;> rfl

theorem cleared_pend (latched : Bool) (b : SubSlot) : (cleared latched b).pend = true ↔
    b.pend = true ∧ ¬(latched = true ∧ b.dirty = false) := by
  unfold cleared
  split
  · rename_i settled
    exact iff_of_false (by simp) fun waits => waits.2 settled
  · rename_i kept
    exact (and_iff_left kept).symm

/-- The sub-slots of the zone a sequence served. -/
def served (r : ModeRun) (x : ZoneSlots) : ZoneSlots :=
  { x with zone := cleared r.latZ x.zone, hot := cleared r.latH x.hot }

theorem clearLatched_eq (z : Zone) (s : State) :
    clearLatched z s = setSlots z (served s.run (slotsOf z s)) s := by
  simp [clearLatched, served, cleared, SubSlot.settled]

theorem modeComplete_of_zone {z : Zone} (h : s.unit = unitOf z) : modeComplete s =
    raiseIrq .modeDone (setSlots z (served s.run (slotsOf z s)) s) := by
  rw [← clearLatched_eq]
  cases z <;> simp only [modeComplete, h, unitOf]

/-- A completed sequence writes MODE_DONE and the sub-slots, and nothing else (R670). -/
theorem modeComplete_frame (s : State) : ∃ irq slots0 slots1, modeComplete s =
    { s with irqStatus := irq, slots0 := slots0, slots1 := slots1 } := by
  unfold modeComplete
  split <;> exact ⟨_, _, _, rfl⟩

section PartDone

variable (p : Fin 8) (base : BitVec 9) (vals : List U16)

/-- After an INVALIDATE the values are dropped (R690). -/
theorem partDone_of_discard (h : s.txnDiscard = true) : partDone p base vals s = s := if_pos h

theorem partDone_of_pending (h : s.txnDiscard = false)
    (left : effEn s &&& ~~~(s.cyc.doneMask ||| (1#8 <<< p.val)) ≠ 0#8) :
    partDone p base vals s = { s with
      vr := memWriteAll s.vr base.toNat vals
      cyc := { s.cyc with doneMask := s.cyc.doneMask ||| (1#8 <<< p.val) } } := by
  rw [partDone, if_neg (ne_true_of_eq_false h)]
  exact if_neg left

theorem partDone_of_last (h : s.txnDiscard = false)
    (last : effEn s &&& ~~~(s.cyc.doneMask ||| (1#8 <<< p.val)) = 0#8) :
    partDone p base vals s = { s with
      vr := memWriteAll s.vr base.toNat vals
      cyc := { s.cyc with
        active := false, doneMask := s.cyc.doneMask ||| (1#8 <<< p.val), valid := true
        sinceMs := 0 }
      cnt := { s.cnt with cycles := s.cnt.cycles + 1 }
      irqStatus := s.irqStatus ||| 0x001#9 } := by
  rw [partDone, if_neg (ne_true_of_eq_false h)]
  exact if_pos last

theorem partDone_vr (h : s.txnDiscard = false) :
    (partDone p base vals s).vr = memWriteAll s.vr base.toNat vals := by
  by_cases last : effEn s &&& ~~~(s.cyc.doneMask ||| (1#8 <<< p.val)) = 0#8
  · rw [partDone_of_last p base vals h last]
  · rw [partDone_of_pending p base vals h last]

/-- A partition read writes VR, the cycle, its counter and its flag, and nothing else (R683). -/
theorem partDone_frame (s : State) : partDone p base vals s = { s with
    vr := (partDone p base vals s).vr
    cyc := (partDone p base vals s).cyc
    cnt := (partDone p base vals s).cnt
    irqStatus := (partDone p base vals s).irqStatus } := by
  unfold partDone
  split
  · rfl
  · dsimp only
    split <;> rfl

end PartDone

/-- The words of a stored block are VALID with its values (R140, R683). -/
theorem vr_of_stored {t : State} {b k : Nat} {vals : List U16}
    (stored : t.vr = memWriteAll s.vr b vals) (inside : k < vals.length) :
    vrValid t (b + k) = true ∧ vrValue t (b + k) = vals.getD k 0#16 := by
  simp [vrValid, vrValue, stored, memRead_memWriteAll_in _ _ _ _ inside, inside]

theorem vr_outside_stored {t : State} {b k : Nat} {vals : List U16}
    (stored : t.vr = memWriteAll s.vr b vals) (epoch : t.vrEpoch = s.vrEpoch)
    (outside : k < b ∨ b + vals.length ≤ k) :
    vrValid t k = vrValid s k ∧ vrValue t k = vrValue s k := by
  simp [vrValid, vrValue, stored, epoch, memRead_memWriteAll_out _ _ _ _ outside]

/-! ## What the result leaves for the stop -/

/-- The position, the aborts counted, the code and the refresh asked for: no result rule changes
them. -/
def stopBase (s : State) : Seq × Word × Ferr × Bool :=
  (s.seq, s.cnt.aborts, s.lastErr, s.cyc.refreshReq)

theorem stopBase_applyResult (op : TxnOp) (r : Except Ferr (List U16)) (s : State) :
    stopBase (applyResult op r s) = stopBase s := by
  match op, r with
  | .read _ .modeRead, .ok _ | .read _ .modeRead, .error _ | .read _ (.partRead _ _), .error _
  | .write _ .modeWrite, .error _ | .write _ .drainWrite, .error _ => rfl
  | .read _ (.partRead p base), .ok vals =>
    show stopBase (partDone p base vals s) = stopBase s
    unfold partDone
    split
    · rfl
    · dsimp only
      split <;> rfl
  | .write _ .modeWrite, .ok _ =>
    unfold applyResult modeComplete
    dsimp only
    split
    · split <;> rfl
    · rfl
  | .write _ .drainWrite, .ok _ =>
    show stopBase (drainDone s) = stopBase s
    rw [drainDone_eq]
    rfl

theorem stopBase_resultState (op : TxnOp) (r : Except Ferr (List U16)) (s : State) :
    (resultState op r s).seq = s.seq ∧ (resultState op r s).cnt.aborts = s.cnt.aborts ∧
    (resultState op r s).lastErr = codeOf r ∧
    ∀ vals p, op = .write vals p → (resultState op r s).cyc.refreshReq = true := by
  have applied := stopBase_applyResult op r
    (noteAttempt op (recorded (codeOf r) { s with txn := none }))
  simp only [stopBase, Prod.mk.injEq] at applied
  obtain ⟨seq, aborts, err, refresh⟩ := applied
  have counted : (recorded (codeOf r) { s with txn := none }).cnt.aborts = s.cnt.aborts := by
    unfold recorded
    dsimp only
    split <;> rfl
  refine ⟨seq.trans ?_, aborts.trans (Eq.trans ?_ counted), err.trans ?_, ?_⟩
  · cases op <;> rfl
  · cases op <;> rfl
  · cases op <;> rfl
  · rintro vals p rfl
    exact refresh

/-- The state after a stop in a turn, whole (R577, R662). -/
def aborted (why : StopReason) (s : State) : State :=
  { s with
    stopPending := none, seq := .off, unit := .mode0, step := 0, arb := .init
    txn := none, txnDiscard := false
    lastAbort := if why = .stop then .stop else .reinit
    cnt := { s.cnt with aborts := s.cnt.aborts + 1 }
    irqStatus := s.irqStatus ||| 0x004#9 ||| (if s.arb = .init then 0#9 else 0x020#9)
    rx := { s.rx with
      owner := if why = .reinit ∧ s.rx.inFrame = true then .discard else s.rx.owner }
    quietMs := if why = .reinit then 0 else s.quietMs }

theorem doStop_of_turn (why : StopReason) (turn : inTurn s = true) :
    doStop why s = aborted why s := by
  rw [doStop_eq, turn]
  cases why <;>
    simp [afterStop, stoppedTurn, Sys2Proof.Proofs.ArbiterEvents.stopped, restartReceiver, aborted,
      StopReason.abort, BitVec.or_assoc, BitVec.or_comm 0x004#9]

theorem irqSet_aborted (why : StopReason) (s : State) :
    irqSet .turnAbort (aborted why s) = true := by
  simp [aborted, irqSet, IrqFlag.bit]

/-- A stop that waited for an answer aborts the turn once the result is recorded and applied
(R607). -/
theorem txnEnd_aborts {why : StopReason} (hx : s.txn = some x)
    (waits : s.stopPending = some why) (wait : s.seq = .wait) (r : Except Ferr (List U16)) :
    txnEnd r s = aborted why (resultState x.op r s) := by
  obtain ⟨seq, -⟩ := stopBase_resultState x.op r s
  rw [txnEnd_of_stop hx waits, doStop_of_turn]
  rw [inTurn, seq, wait]

end Sys2Proof.Proofs.TransactionResult
end

section
/-! PROOFS. The turn that goes on after a transaction (45_turn_sequencer.md R650–R685): the work it
leaves alone, the refresh it keeps, and what a read and a drain step write. -/

namespace Sys2Proof.Proofs.TurnWork

open Sys2Proof Sys2Proof.Machine Sys2Proof.Proofs.ArbiterView

variable {s : State}

/-! ## What the turn leaves alone -/

/-- The results reported and the work that waits or is done: what the continuation of a turn leaves
alone. The sub-slots are seen without their `dirty` bits. -/
structure Work where
  txnOk : Word
  txnFail : Word
  failed : Bool
  modeDone : Bool
  wqEmpty : Bool
  vr : Memory U16
  slots0 : ZoneSlots
  slots1 : ZoneSlots

/-- The requests of a zone, whether or not a sequence has latched them. -/
def requests (x : ZoneSlots) : ZoneSlots := { zone := x.zone.latch, hot := x.hot.latch }

/-- The work of a state. -/
def work (s : State) : Work :=
  { txnOk := s.cnt.txnOk
    txnFail := s.cnt.txnFail
    failed := irqSet .txnFail s
    modeDone := irqSet .modeDone s
    wqEmpty := irqSet .wqEmpty s
    vr := s.vr
    slots0 := requests s.slots0
    slots1 := requests s.slots1 }

@[simp] theorem slotsOf_raiseIrq (f : IrqFlag) (z : Zone) (s : State) :
    slotsOf z (raiseIrq f s) = slotsOf z s := by
  cases z <;> rfl

theorem slots_of_work {t : State} (h : work t = work s) (z : Zone) :
    requests (slotsOf z t) = requests (slotsOf z s) := by
  cases z with
  | z0 => exact congrArg Work.slots0 h
  | z1 => exact congrArg Work.slots1 h

theorem requests_eq_iff (x y : ZoneSlots) : requests x = requests y ↔
    (x.zone.pend = y.zone.pend ∧ x.zone.code = y.zone.code) ∧
      x.hot.pend = y.hot.pend ∧ x.hot.code = y.hot.code := by
  simp [requests, SubSlot.latch]

@[simp] theorem work_completeCycle (s : State) : work (completeCycle s) = work s := by
  simp [work, completeCycle, irqSet, IrqFlag.mask, IrqFlag.bit]

@[simp] theorem work_endTurn (s : State) : work (endTurn s) = work s := rfl

@[simp] theorem work_cycleStart (s : State) : work (cycleStart s) = work s := by
  rcases cycleStart_cases s with ⟨-, h⟩ | ⟨-, h⟩ <;> rw [h]
  rfl

@[simp] theorem work_readIdle (s : State) : work (readIdle s) = work s := by
  unfold readIdle
  split
  · rfl
  · split
    · rfl
    · exact work_completeCycle s

@[simp] theorem work_beginRead (start count : U16) (p : ReadPurpose) (s : State) :
    work (beginRead start count p s) = work s := rfl

@[simp] theorem work_beginWrite (start : U16) (vals : List U16) (p : WritePurpose) (s : State) :
    work (beginWrite start vals p s) = work s := rfl

@[simp] theorem work_readStep (s : State) : work (readStep s) = work s := by
  rcases readStep_cases s with h | ⟨p, -, -, h⟩ <;> simp [h]

@[simp] theorem work_readUnit (s : State) : work (readUnit s) = work s := work_readStep _

@[simp] theorem work_drainNext (s : State) : work (drainNext s) = work s := by
  rcases drainNext_cases s with ⟨_, _, -, -, h⟩ | ⟨-, h⟩ <;> simp [h]

@[simp] theorem work_drainUnit (s : State) : work (drainUnit s) = work s := work_drainNext _

@[simp] theorem work_modeStart (z : Zone) (s : State) : work (modeStart z s) = work s := by
  cases z <;> rfl

@[simp] theorem work_advance (u : TurnUnit) (s : State) : work (advance u s) = work s := by
  rcases advance_cases u s with ⟨z, -, h⟩ | h | h <;> simp [h]

@[simp] theorem work_runStep (s : State) : work (runStep s) = work s := by
  unfold runStep
  split
  · rfl
  · rfl
  · exact work_advance _ s

@[simp] theorem work_continueTurn (op : TxnOp) (r : Except Ferr (List U16)) (s : State) :
    work (continueTurn op r s) = work s := by
  match op, r with
  | .read _ .modeRead, .ok _ => exact work_runStep s
  | .read _ .modeRead, .error _ => exact work_advance _ s
  | .read _ (.partRead _ _), .ok _ | .read _ (.partRead _ _), .error _ => exact work_endTurn s
  | .write _ .modeWrite, .ok _ =>
    unfold continueTurn
    dsimp only
    split
    · exact work_advance _ s
    · exact work_runStep { s with step := s.step + 1 }
  | .write _ .modeWrite, .error _ => exact work_advance _ s
  | .write _ .drainWrite, .ok _ => exact work_drainNext s
  | .write _ .drainWrite, .error _ => exact work_readUnit s

/-! ## The refresh asked for -/

theorem eq_zero_of_lowestBit_none {m : BitVec 8} (h : lowestBit m = none) : m = 0#8 := by
  refine BitVec.eq_of_getLsbD_eq fun i hi => ?_
  have clear := List.find?_eq_none.1 h (⟨i, hi⟩ : Fin 8)
    (by revert hi; revert i; decide)
  simpa using clear

/-- A refresh is asked for, or the read cycle that answers it is active (R684, R685). -/
def RefreshDue (s : State) : Prop := s.cyc.refreshReq = true ∨ s.cyc.active = true

/-- A read step drops the request only to start a cycle, whose first read then begins (R680, R685). -/
theorem refreshDue_readStep (h : s.cyc.refreshReq = true) : RefreshDue (readStep s) := by
  rcases cycleStart_cases s with ⟨due, started⟩ | ⟨-, kept⟩
  · right
    obtain ⟨⟨-, effective⟩, -⟩ : (_ ∧ effEn s ≠ 0#8) ∧ _ := by
      simpa only [cycleDue, Bool.and_eq_true, bne_iff_ne] using due
    have fresh : pendingParts (cycleStart s) = effEn s := by
      rw [started]
      show effEn s &&& ~~~0#8 = effEn s
      rw [BitVec.not_zero, BitVec.and_allOnes]
    have active : (cycleStart s).cyc.active = true := by rw [started]
    have same : effEn (cycleStart s) = effEn s := by rw [started]; rfl
    cases lowest : lowestBit (effEn s) with
    | none => exact absurd (eq_zero_of_lowestBit_none lowest) effective
    | some p => simp [readStep, active, same, effective, fresh, lowest, beginRead]
  · left
    rcases readStep_cases s with ended | ⟨p, -, -, begun⟩
    · rw [ended, kept]
      unfold readIdle
      split
      · exact h
      · split <;> exact h
    · rw [begun, kept]
      exact h

theorem refreshDue_drainNext (h : s.cyc.refreshReq = true) : RefreshDue (drainNext s) := by
  rcases drainNext_cases s with ⟨_, _, -, -, begun⟩ | ⟨-, next⟩
  · rw [begun]
    exact .inl h
  · rw [next]
    exact refreshDue_readStep h

theorem refreshDue_advance (u : TurnUnit) (h : s.cyc.refreshReq = true) :
    RefreshDue (advance u s) := by
  rcases advance_cases u s with ⟨z, -, next⟩ | next | next <;> rw [next]
  · left
    cases z <;> exact h
  · exact refreshDue_drainNext h
  · exact refreshDue_readStep h

/-! ## The read and the drain, whole -/

theorem cycleStart_frame (s : State) : ∃ cyc, cycleStart s = { s with cyc := cyc } := by
  rcases cycleStart_cases s with ⟨-, h⟩ | ⟨-, h⟩ <;> exact ⟨_, h⟩

/-- What a read step writes; everything else stays (R681). -/
theorem readStep_frame (s : State) : readStep s = { s with
    cnt := { s.cnt with cycles := (readStep s).cnt.cycles }
    irqStatus := (readStep s).irqStatus, cyc := (readStep s).cyc, txn := (readStep s).txn
    tx := { s.tx with buf := (readStep s).tx.buf }
    seq := (readStep s).seq, unit := (readStep s).unit, step := (readStep s).step
    listenMs := (readStep s).listenMs } := by
  obtain ⟨cyc, started⟩ := cycleStart_frame s
  rcases readStep_cases s with ended | ⟨p, -, -, begun⟩
  · rw [ended, started, readIdle]
    split
    · rfl
    · split <;> rfl
  · rw [begun, started]
    rfl

/-- What a drain step writes; everything else stays (R676). -/
theorem drainNext_frame (s : State) : drainNext s = { s with
    cnt := { s.cnt with cycles := (drainNext s).cnt.cycles }
    irqStatus := (drainNext s).irqStatus, cyc := (drainNext s).cyc, txn := (drainNext s).txn
    tx := { s.tx with buf := (drainNext s).tx.buf }, ackExp := (drainNext s).ackExp
    seq := (drainNext s).seq, unit := (drainNext s).unit, step := (drainNext s).step
    listenMs := (drainNext s).listenMs } := by
  rcases drainNext_cases s with ⟨_, _, -, -, begun⟩ | ⟨-, next⟩
  · rw [begun]
    rfl
  · rw [next, readUnit, readStep_frame]

/-! ## The mode program -/

theorem program_one (r : ModeRun) : program r 1 =
    some (.write (if r.af then r.dcReg else r.modeReg) (if r.af then 1#16 else r.val)) := by
  unfold program
  cases r.af <;> rfl

theorem runStep_of_write {reg v : U16} (h : program s.run s.step = some (.write reg v)) :
    runStep s = beginWrite reg [v] .modeWrite s := by
  rw [runStep, h]

theorem runStep_of_pause (h : program s.run s.step = some .pause) :
    runStep s = { s with seq := .pause, pauseMs := 0 } := by
  rw [runStep, h]

end Sys2Proof.Proofs.TurnWork
end

section
/-! PROOFS. The end of a transaction for each purpose (44_transactions.md R605–R607,
45_turn_sequencer.md R666–R684), and the statements of that family. -/

namespace Sys2Proof.Proofs.TransactionEnd

open Sys2Proof Sys2Proof.Machine Sys2Proof.Proofs.ArbiterView Sys2Proof.Proofs.AnswerWindow
open Sys2Proof.Proofs.TransactionResult Sys2Proof.Proofs.TurnWork
open Sys2Proof.Proofs.WriteQueue (queueView queueView_drainNext queueView_continueTurn)

variable {s : State}

/-! ## A write acknowledged -/

theorem exec_writeAck_of_free {a : Byte} {st : U16} {n : Byte} {vals : List U16} {p : WritePurpose}
    (own : s.rx.owner = .answer) (clean : s.rx.ferr = false) (free : s.stopPending = none)
    (hx : s.txn = some { addr := a, start := st, op := .write vals p })
    (expected : s.ackExp = ackFrame a st n) : exec (.writeAck a st n) s =
      .next (continueTurn (.write vals p) (.ok [])
        (applyResult (.write vals p) (.ok []) (acknowledged (closeFrame s)))) :=
  (exec_writeAck own clean hx expected).trans (congrArg Host.Outcome.next
    (txnEnd_of_free (s := closeFrame s) hx free (.ok [])))

/-- The state in which the queue has lost the entry acknowledged (R677). -/
def drained (s : State) : State :=
  { acknowledged s with
    wq := s.wq.tail
    irqStatus := if s.wq.tail = [] then s.irqStatus ||| 0x080#9 else s.irqStatus }

theorem applyResult_drainWrite (vals vs : List U16) (s : State) :
    applyResult (.write vals .drainWrite) (.ok vs) (acknowledged s) = drained s :=
  drainDone_eq _

/-- The results that a turn which goes on leaves reported. -/
theorem continueTurn_reports (op : TxnOp) (r : Except Ferr (List U16)) (s : State) :
    let t := continueTurn op r s
    t.lastErr = s.lastErr ∧ t.cnt.txnOk = s.cnt.txnOk ∧ t.wq = s.wq ∧ t.vr = s.vr ∧
      t.arb = s.arb := by
  obtain ⟨wq, lastErr⟩ := Prod.mk_inj.1 (queueView_continueTurn op r s)
  have worked := work_continueTurn op r s
  exact ⟨lastErr, congrArg Work.txnOk worked, wq, congrArg Work.vr worked,
    arb_of_view (view_continueTurn op r s)⟩

/-- The state after the ack of a step of a mode sequence. -/
def stepAcknowledged (vals : List U16) (s : State) : State :=
  continueTurn (.write vals .modeWrite) (.ok [])
    (applyResult (.write vals .modeWrite) (.ok []) (acknowledged s))

theorem stepAcknowledged_of_more (vals : List U16) (more : s.step ≠ lastStep s.run) :
    stepAcknowledged vals s = runStep { acknowledged s with step := s.step + 1 } := by
  rw [stepAcknowledged, applyResult_modeWrite_of_more (s := acknowledged s) vals [] more]
  exact if_neg more

theorem stepAcknowledged_of_last (vals : List U16) (last : s.step = lastStep s.run) :
    stepAcknowledged vals s = advance s.unit.next (modeComplete (acknowledged s)) := by
  obtain ⟨irq, slots0, slots1, frame⟩ := modeComplete_frame (acknowledged s)
  rw [stepAcknowledged, applyResult_modeWrite_of_last (s := acknowledged s) vals [] last, frame]
  exact if_pos last

theorem stepAcknowledged_reports (vals : List U16) (s : State) :
    let t := stepAcknowledged vals s
    t.lastErr = .ok ∧ t.cnt.txnOk = s.cnt.txnOk + 1 ∧ t.wq = s.wq ∧ t.vr = s.vr ∧
      t.arb = s.arb := by
  have reports := continueTurn_reports (.write vals .modeWrite) (.ok [])
    (applyResult (.write vals .modeWrite) (.ok []) (acknowledged s))
  rw [← stepAcknowledged] at reports
  by_cases last : s.step = lastStep s.run
  · obtain ⟨irq, slots0, slots1, frame⟩ := modeComplete_frame (acknowledged s)
    rwa [applyResult_modeWrite_of_last (s := acknowledged s) vals [] last, frame] at reports
  · rwa [applyResult_modeWrite_of_more (s := acknowledged s) vals [] last] at reports

/-! ## The statements -/

/-- Settles O44: the answer parses to its values, which the partition read stores, and the turn
ends. -/
theorem partitionReadAnswered : Obligations.PartitionReadAnswered := by
  intro a st vals p base s nonempty fits own clean free hx
  have ended : exec (.readAnswer a vals) s =
      .next (endTurn { partDone p base vals (answered (closeFrame s)) with txnDiscard := false }) :=
    (exec_readAnswer nonempty fits own clean hx).trans (congrArg Host.Outcome.next
      (txnEnd_of_free (s := closeFrame s) hx free (.ok vals)))
  have frame := partDone_frame p base vals (answered (closeFrame s))
  refine ⟨_, ended, ?frame, fun discard => ?dropped, fun kept => ⟨fun k inside => ?inside,
    fun k outside => ?outside, fun left => ?pending, fun last => ?last⟩⟩
  case frame =>
    rw [frame]
    rfl
  case dropped =>
    rw [partDone_of_discard (s := answered (closeFrame s)) _ _ _ discard]
    exact ⟨rfl, rfl, rfl, rfl⟩
  case inside => exact vr_of_stored (partDone_vr (s := answered (closeFrame s)) _ _ _ kept) inside
  case outside =>
    refine vr_outside_stored (s := s) (partDone_vr (s := answered (closeFrame s)) _ _ _ kept) ?_
      outside
    rw [frame]
    rfl
  case pending =>
    rw [partDone_of_pending (s := answered (closeFrame s)) _ _ _ kept left]
    exact ⟨rfl, rfl, rfl⟩
  case last =>
    rw [partDone_of_last (s := answered (closeFrame s)) _ _ _ kept last]
    exact ⟨rfl, rfl, rfl⟩

/-- Settles O45: the answer parses to its one value, which is merged, and step 1 of the program is a
write. -/
theorem modeReadAnswered : Obligations.ModeReadAnswered := by
  intro a st v s own clean free hx m af reg w
  have ended : exec (.readAnswer a [v]) s =
      .next (runStep (modeMerge v (answered (closeFrame s)))) :=
    (exec_readAnswer (vals := [v]) (by simp) (by simp) own clean hx).trans
      (congrArg Host.Outcome.next (txnEnd_of_free (s := closeFrame s) hx free (.ok [v])))
  rw [ended]
  exact congrArg Host.Outcome.next (runStep_of_write (program_one _))

/-- Settles O46: the ack expected removes the head of the queue, and the drain goes on. -/
theorem drainWriteAcknowledged : Obligations.DrainWriteAcknowledged := by
  intro a st vals s own clean free hx expected
  have ended : exec (.writeAck a st (BitVec.ofNat 8 vals.length)) s =
      .next (drainNext (drained (closeFrame s))) := by
    rw [exec_writeAck_of_free own clean free hx expected, applyResult_drainWrite]
    rfl
  have queue := queueView_drainNext (drained (closeFrame s))
  obtain ⟨wq, lastErr⟩ := Prod.mk_inj.1 queue
  have worked := work_drainNext (drained (closeFrame s))
  refine ⟨drainNext (drained (closeFrame s)), ended, wq, lastErr, congrArg Work.txnOk worked,
    fun last => ?empty, refreshDue_drainNext rfl, drainNext_frame (drained (closeFrame s)),
    fun h rest more budget => ?next, fun done => ?done⟩
  case empty =>
    have raised : irqSet .wqEmpty (drained (closeFrame s)) = true := by
      simp [drained, irqSet, closeFrame, last, IrqFlag.bit]
    exact (congrArg Work.wqEmpty worked).trans raised
  case next =>
    rcases drainNext_cases (drained (closeFrame s)) with
      ⟨h', rest', first, -, begun⟩ | ⟨empty | late, -⟩
    · obtain ⟨rfl, rfl⟩ : h = h' ∧ rest = rest' := List.cons_eq_cons.1 (more.symm.trans first)
      rw [begun]
      simp only [drained, closeFrame, more]
      rfl
    · exact absurd (more.symm.trans empty) (List.cons_ne_nil h rest)
    · exact absurd budget (Nat.not_lt.2 late)
  case done =>
    rcases drainNext_cases (drained (closeFrame s)) with ⟨h, rest, first, budget, -⟩ | ⟨-, next⟩
    · rcases done with empty | late
      · exact absurd (first.symm.trans empty) (List.cons_ne_nil h rest)
      · exact absurd budget (Nat.not_lt.2 late)
    · rw [next]
      rfl

/-- Settles O47: the ack expected ends the step; the next step of the program runs, or the sequence
completes and its zone's sub-slots are settled. -/
theorem modeWriteAcknowledged : Obligations.ModeWriteAcknowledged := by
  intro a reg v s own clean free hx expected
  have ended : exec (.writeAck a reg 1#8) s = .next (stepAcknowledged [v] (closeFrame s)) :=
    exec_writeAck_of_free own clean free hx expected
  obtain ⟨lastErr, txnOk, wq, vr, arb⟩ := stepAcknowledged_reports [v] (closeFrame s)
  refine ⟨_, ended, lastErr, txnOk, wq, vr, arb, fun more => ⟨fun r w write => ?write,
    fun pause => ?pause⟩, fun last z unit => ?settled, fun last => ⟨fun unit => ?zone0,
    fun unit => ?zone1⟩⟩
  case write =>
    rw [stepAcknowledged_of_more (s := closeFrame s) [v] more]
    exact runStep_of_write write
  case pause =>
    rw [stepAcknowledged_of_more (s := closeFrame s) [v] more]
    exact runStep_of_pause pause
  all_goals rw [stepAcknowledged_of_last (s := closeFrame s) [v] last]
  case settled =>
    rw [modeComplete_of_zone (s := acknowledged (closeFrame s)) unit]
    have worked := work_advance s.unit.next (raiseIrq .modeDone
      (setSlots z (served s.run (slotsOf z s)) (acknowledged (closeFrame s))))
    have slots := slots_of_work worked z
    rw [slotsOf_raiseIrq, slotsOf_setSlots, requests_eq_iff] at slots
    obtain ⟨⟨zonePend, zoneCode⟩, hotPend, hotCode⟩ := slots
    have raised := (congrArg Work.modeDone worked).trans (irqSet_raiseIrq ..)
    exact ⟨raised.trans (by simp), zoneCode.trans (cleared_code ..), hotCode.trans (cleared_code ..),
      (Bool.eq_iff_iff.1 zonePend).trans (cleared_pend ..),
      (Bool.eq_iff_iff.1 hotPend).trans (cleared_pend ..)⟩
  case zone0 =>
    rw [modeComplete_of_zone (s := acknowledged (closeFrame s)) (z := .z0) unit]
    exact congrArg (advance · _) (congrArg TurnUnit.next unit)
  case zone1 =>
    rw [modeComplete_of_zone (s := acknowledged (closeFrame s)) (z := .z1) unit]
    exact congrArg (advance · _) (congrArg TurnUnit.next unit)

/-- Settles O48: a frame of the window ends the transaction with its result; a failure is recorded
and the continuation leaves the work alone. -/
theorem failedTransactionKeepsWork : Obligations.FailedTransactionKeepsWork := by
  refine ⟨fun n f x s own hx => deliverFrame_of_answer own hx n f, fun x e s hx failure free => ?_⟩
  intro t failed wrote
  have record : recorded e { s with txn := none } = failed := recorded_of_failure failure _
  have ended : t = continueTurn x.op (.error e) (resultState x.op (.error e) s) :=
    txnEnd_of_free hx free _
  obtain ⟨discard, refresh, frame⟩ := resultState_error_frame x.op e s
  rw [record] at frame
  have worked : work t = work failed := by
    rw [ended, work_continueTurn, frame]
    rfl
  have queue : queueView t = queueView failed := by
    rw [ended, queueView_continueTurn, frame]
    rfl
  have flags (f : IrqFlag) : irqSet f failed = (irqSet f s || decide (.txnFail = f)) :=
    irqSet_raiseIrq .txnFail f s
  obtain ⟨wq, lastErr⟩ := Prod.mk_inj.1 queue
  refine ⟨lastErr, congrArg Work.txnFail worked, congrArg Work.txnOk worked,
    (congrArg Work.failed worked).trans ?failFlag, (congrArg Work.modeDone worked).trans ?doneFlag,
    (congrArg Work.wqEmpty worked).trans ?emptyFlag, wq, congrArg Work.vr worked,
    fun z => ?slots, fun c p b op => ?part, fun z unit => ⟨fun c op => ?modeRead,
      fun vals op => ?modeWrite⟩, fun vals op => ?drain, fun vals p op => ?refresh⟩
  case failFlag => exact (flags _).trans (by simp)
  case doneFlag => exact (flags _).trans (by simp)
  case emptyFlag => exact (flags _).trans (by simp)
  case slots =>
    obtain ⟨⟨zonePend, zoneCode⟩, hotPend, hotCode⟩ :=
      (requests_eq_iff _ _).1 (slots_of_work worked z)
    cases z <;> exact ⟨zonePend, zoneCode, hotPend, hotCode⟩
  all_goals rw [ended, op]
  case part =>
    show endTurn { recorded e { s with txn := none } with txnDiscard := false } = _
    rw [record]
    rfl
  case modeRead =>
    show advance s.unit.next (recorded e { s with txn := none }) = _
    rw [record, unit]
    cases z <;> rfl
  all_goals rw [resultState_write_error, record]
  case modeWrite =>
    show advance s.unit.next wrote = _
    rw [unit]
    cases z <;> rfl
  case drain => rfl
  case refresh =>
    cases p with
    | modeWrite => exact refreshDue_advance _ rfl
    | drainWrite => exact refreshDue_readStep rfl

/-- Settles O49: the result is recorded and applied as without a stop, then the turn is aborted. -/
theorem pendingStopFollowsResult : Obligations.PendingStopFollowsResult := by
  intro x why r s hx waits wait t recorded wrote stopped
  have ended : t = aborted why (resultState x.op r s) := txnEnd_aborts hx waits wait r
  refine ⟨?report, fun e failed => ⟨fun c p op => ?readFailed, fun vals p op => ?writeFailed⟩,
    fun c v vs op ok => ?modeRead, fun c p b vals op ok => ⟨fun discard => ?dropped,
      fun kept => ⟨fun left => ?pending, fun last => ?last⟩⟩,
    fun vals vs op ok => ⟨fun more => ?more, fun last => ⟨fun unit => ?zone0, fun unit => ?zone1⟩⟩,
    fun vals vs op ok => ?drain⟩
  case report =>
    obtain ⟨-, aborts, lastErr, refresh⟩ := stopBase_resultState x.op r s
    rw [ended]
    refine ⟨rfl, rfl, rfl, rfl, lastErr, ?_, congrArg (· + 1) aborts, irqSet_aborted why _, refresh⟩
    cases why <;> rfl
  all_goals rw [ended, op]
  case readFailed =>
    subst failed
    cases p <;> rfl
  case writeFailed =>
    subst failed
    rw [resultState_write_error]
    rfl
  all_goals subst ok
  case modeRead => rfl
  case dropped =>
    rw [resultState_partRead, partDone_of_discard (s := answered s) _ _ _ discard]
    rfl
  case pending =>
    rw [resultState_partRead, partDone_of_pending (s := answered s) _ _ _ kept left]
    rfl
  case last =>
    rw [resultState_partRead, partDone_of_last (s := answered s) _ _ _ kept last]
    rfl
  all_goals rw [resultState_write_ok]
  case more =>
    rw [applyResult_modeWrite_of_more (s := acknowledged s) _ _ more]
    rfl
  case zone0 =>
    rw [applyResult_modeWrite_of_last (s := acknowledged s) _ _ last,
      modeComplete_of_zone (s := acknowledged s) (z := .z0) unit]
    rfl
  case zone1 =>
    rw [applyResult_modeWrite_of_last (s := acknowledged s) _ _ last,
      modeComplete_of_zone (s := acknowledged s) (z := .z1) unit]
    rfl
  case drain =>
    rw [applyResult_drainWrite]
    rfl

end Sys2Proof.Proofs.TransactionEnd
end

section
/-! PROOFS. The read step (45_turn_sequencer.md R680–R682): each of its outcomes by the condition
that leads to it. -/

namespace Sys2Proof.Proofs.ReadStep

open Sys2Proof Sys2Proof.Machine

variable {s : State}

/-! ## The lowest partition -/

/-- The lowest bit is the one that is set with none set below it (R681). -/
theorem lowestBit_eq_some_iff {m : BitVec 8} {p : Fin 8} : lowestBit m = some p ↔
    m.getLsbD p.val = true ∧ ∀ q, q < p.val → m.getLsbD q = false := by
  have rising : lowestBit m = (List.finRange 8).find? fun p => m.getLsbD p.val := rfl
  simp only [rising, List.find?_eq_some_iff_getElem, List.getElem_finRange, List.length_finRange,
    Bool.not_eq_true']
  refine and_congr_right fun _ => ⟨?_, fun clear => ⟨p.val, p.isLt, rfl, fun q hq => clear q hq⟩⟩
  rintro ⟨i, hi, rfl, clear⟩ q hq
  exact clear q hq

theorem lowestBit_zero : lowestBit 0#8 = none := by decide

theorem exists_lowestBit {m : BitVec 8} (h : m ≠ 0#8) : ∃ p, lowestBit m = some p := by
  cases lowest : lowestBit m with
  | none => exact absurd (TurnWork.eq_zero_of_lowestBit_none lowest) h
  | some p => exact ⟨p, rfl⟩

/-! ## The start of a cycle -/

/-- The conditions of the start check (R680). -/
theorem cycleDue_iff (s : State) : cycleDue s = true ↔
    s.cyc.active = false ∧ irqSet .cycleDone s = false ∧ effEn s ≠ 0#8 ∧
      (s.cyc.refreshReq = true ∨ s.cyc.valid = false ∨
        1000 * s.cfg.cyclePeriod.toNat ≤ s.cyc.sinceMs) := by
  simp [cycleDue, and_assoc, or_assoc]

theorem cycleStart_of_due (due : cycleDue s = true) : cycleStart s =
    { s with cyc.active := true, cyc.doneMask := 0#8, cyc.refreshReq := false } := if_pos due

theorem cycleStart_of_not_due (notDue : ¬cycleDue s = true) : cycleStart s = s := if_neg notDue

/-! ## The outcomes -/

/-- With no cycle the turn ends (R653, R681). -/
theorem readStep_of_no_cycle (inactive : (cycleStart s).cyc.active = false) :
    readStep s = endTurn (cycleStart s) := by
  simp [readStep, inactive]

/-- A cycle without an effective partition is dropped (R681). -/
theorem readStep_of_no_partition (active : (cycleStart s).cyc.active = true)
    (none : effEn (cycleStart s) = 0#8) :
    readStep s = endTurn { cycleStart s with cyc.active := false } := by
  simp [readStep, active, none]

/-- A cycle with nothing left to read completes (R681, R682). -/
theorem readStep_of_all_done (active : (cycleStart s).cyc.active = true)
    (some : effEn (cycleStart s) ≠ 0#8) (done : pendingParts (cycleStart s) = 0#8) :
    readStep s = endTurn (completeCycle (cycleStart s)) := by
  simp [readStep, active, some, done, lowestBit_zero]

/-- Else the lowest pending partition is read (R681). -/
theorem readStep_of_lowest {p : Fin 8} (active : (cycleStart s).cyc.active = true)
    (lowest : lowestBit (pendingParts (cycleStart s)) = some p) :
    readStep s = beginRead ((cycleStart s).cfg.pt[p]).start
      (((cycleStart s).cfg.pt[p]).count.setWidth 16)
      (.partRead p ((cycleStart s).cfg.pt[p]).base) (cycleStart s) := by
  have effective : effEn (cycleStart s) ≠ 0#8 := by
    intro none
    rw [pendingParts, none, BitVec.zero_and, lowestBit_zero] at lowest
    cases lowest
  simp [readStep, active, effective, lowest]

/-- A cycle that starts begins the read of a partition in the same step (R680, R681). -/
theorem readStep_of_due (due : cycleDue s = true) : ∃ p : Fin 8,
    readStep s = beginRead (s.cfg.pt[p]).start ((s.cfg.pt[p]).count.setWidth 16)
      (.partRead p (s.cfg.pt[p]).base) (cycleStart s) := by
  obtain ⟨-, -, effective, -⟩ := (cycleDue_iff s).1 due
  obtain ⟨p, lowest⟩ := exists_lowestBit effective
  have started := cycleStart_of_due due
  have fresh : pendingParts (cycleStart s) = effEn s := by
    rw [started]
    show effEn s &&& ~~~0#8 = effEn s
    rw [BitVec.not_zero, BitVec.and_allOnes]
  refine ⟨p, (readStep_of_lowest (by rw [started]) (fresh ▸ lowest)).trans ?_⟩
  rw [started]

end Sys2Proof.Proofs.ReadStep
end

section
/-! PROOFS. The refresh request through every operation and every event (45_turn_sequencer.md R684,
R685): it is kept, or the read cycle it asks for starts. -/

namespace Sys2Proof.Proofs.RefreshRequest

open Sys2Proof Sys2Proof.Machine Sys2Proof.Proofs.CtrlWrites Sys2Proof.Proofs.ArbiterView
open Sys2Proof.Proofs.ArbiterEvents Sys2Proof.Proofs.TransactionResult Sys2Proof.Proofs.ReadStep
open Sys2Proof.Proofs.WriteQueue (txnEnd_of_txn_none frameEnd_eq_deliverFrame
  isCommand_of_decodeCommand countBit_eq transmitTick_of_ne_tx)
open Sys2Proof.Proofs.ReceivedCharacters (observe_eq)
open Sys2Proof.Proofs.FrameDelivery (snoopReport_eq receiveTick_of_no_gap receiveTick_of_gap)
open Sys2Proof.Proofs.Transmission (transmitTick_of_tx)

/-! ## Operations that leave the read cycle alone -/

@[simp] theorem abortTurn_cyc (reason : AbortReason) (s : State) :
    (abortTurn reason s).cyc = s.cyc := by
  rw [abortTurn_eq, setArb_cyc]

@[simp] theorem doStop_cyc (r : StopReason) (s : State) : (doStop r s).cyc = s.cyc := by
  rw [doStop_eq]
  cases r <;> split <;> rfl

@[simp] theorem stopRequest_cyc (r : StopReason) (s : State) : (stopRequest r s).cyc = s.cyc := by
  rcases stopRequest_cases r s with ⟨-, p, h⟩ | ⟨-, h⟩ <;> rw [h]
  exact doStop_cyc r s

@[simp] theorem observe_cyc (s : State) : (observe s).cyc = s.cyc := by
  rw [observe_eq]

theorem rxStart_cyc (s : State) : (rxStart s).cyc = s.cyc := by
  unfold rxStart
  split
  · rfl
  · dsimp only
    split
    · exact abortTurn_cyc _ _
    · rfl

theorem rxByte_cyc (b : Byte) (ferr : Bool) (s : State) : (rxByte b ferr s).cyc = s.cyc := by
  have stored : ∀ u : State, (storeByte b ferr u).cyc = u.cyc := fun _ => rfl
  have opened : ∀ u : State, (openFrame u).cyc = u.cyc := fun _ => rfl
  unfold rxByte
  simp only [apply_ite State.cyc, observe_cyc, abortTurn_cyc, stored, opened, ite_self]

theorem snoopFrame_cyc (n : Nat) (f : List Byte) (fe : Bool) (s : State) :
    (snoopFrame n f fe s).cyc = s.cyc := by
  rw [snoopFrame, snoopReport_eq]

/-! ## Host accesses -/

/-- No bit of CTRL withdraws the request (R103, R684). -/
theorem writeCtrl_keeps_refreshReq (v : Word) {s : State} (asked : s.cyc.refreshReq = true) :
    (writeCtrl v s).cyc.refreshReq = true := by
  have en : ∀ b, (ctrlEn b s).cyc = s.cyc := fun b => by
    unfold ctrlEn
    split
    · exact stopRequest_cyc .stop _
    · rfl
  have reinit : ∀ b u, (ctrlReinit b u).cyc = u.cyc := fun b u => by
    cases b with
    | false => rfl
    | true => exact stopRequest_cyc .reinit u
  have invalidated : ∀ b u, (ctrlInvalidate b u).cyc.refreshReq = u.cyc.refreshReq := fun b u => by
    cases b <;> rfl
  rw [writeCtrl_eq]
  cases v.getLsbD 3 with
  | true => rfl
  | false => rw [ctrlRefresh_false, invalidated, reinit, en, asked]

@[simp] theorem reportRequest_cyc (r : Except Ferr ParsedRequest) (s : State) :
    (reportRequest r s).cyc = s.cyc := by
  cases r with
  | error e => rfl
  | ok q => cases q <;> rfl

@[simp] theorem reportAnswer_cyc (l : BitVec 9) (r : Except Ferr (List U16)) (s : State) :
    (reportAnswer l r s).cyc = s.cyc := by
  cases r <;> rfl

/-- A host command leaves the read cycle alone (R713, R722). -/
theorem exec_command_cyc {i : Instr} (h : isCommand i = true) {s t : State}
    (ht : exec i s = .next t) : t.cyc = s.cyc := by
  cases i with
  | nop | crcInit | crcByte => cases ht; exact finish_cyc _ _
  | crcBuf | bldRead | bldWrite | bldAck => cases ht; split <;> exact finish_cyc _ _
  | prsReq => cases ht; rw [finish_cyc, reportRequest_cyc]; rfl
  | prsAns => cases ht; rw [finish_cyc, reportAnswer_cyc]; rfl
  | wqPush =>
    cases ht
    split
    · exact finish_cyc _ _
    · split <;> exact finish_cyc _ _
  | modeReq => cases ht; rw [finish_cyc, setSlots_cyc]; rfl
  | _ => cases h

theorem issueCommand_cyc {w : Word} {s t : State} (h : issueCommand exec w s = .next t) :
    t.cyc = s.cyc := by
  unfold issueCommand at h
  dsimp only at h
  split at h
  · rename_i i hi
    exact (exec_command_cyc (isCommand_of_decodeCommand hi) h).trans rfl
  · cases h
    rw [finish_cyc]
    rfl

theorem busWrite_keeps_refreshReq {a : BitVec 14} {v : Word} {s t : State}
    (h : busWrite exec a v s = .next t) (asked : s.cyc.refreshReq = true) :
    t.cyc.refreshReq = true := by
  unfold busWrite at h
  split at h
  · cases h; exact asked
  · rename_i r hr
    split at h
    · rw [issueCommand_cyc h, asked]
    · cases h
      cases r with
      | ctrl => exact writeCtrl_keeps_refreshReq v asked
      | _ => exact asked

/-! ## The request kept or answered -/

/-- From `s` to `t` a read cycle starts: the conditions of the start check held in `s`, and the
first read of the cycle is begun in `t` (R680, R681). -/
def CycleBegun (s t : State) : Prop :=
  s.cyc.active = false ∧ irqSet .cycleDone s = false ∧ effEn s ≠ 0#8 ∧
    t.cyc.active = true ∧ t.cyc.doneMask = 0#8 ∧ t.unit = .read ∧ t.seq = .guard

/-- A refresh asked for in `s` is still asked for in `t`, or its cycle has started (R685). -/
def KeepsRefresh (s t : State) : Prop :=
  s.cyc.refreshReq = true → t.cyc.refreshReq = true ∨ CycleBegun s t

/-- What a cycle's start needs of the state, besides a reason (R680). -/
def startConditions (s : State) : Bool × Bool × BitVec 8 :=
  (s.cyc.active, irqSet .cycleDone s, effEn s)

theorem keepsRefresh_of_cyc {s t : State} (same : t.cyc = s.cyc) : KeepsRefresh s t := fun asked =>
  .inl (same ▸ asked)

/-- What comes before the turn's next unit may change neither the conditions nor the request. -/
theorem KeepsRefresh.of_before {s u t : State} (h : KeepsRefresh u t)
    (same : startConditions u = startConditions s)
    (kept : s.cyc.refreshReq = true → u.cyc.refreshReq = true) : KeepsRefresh s t := by
  simp only [startConditions, Prod.mk.injEq] at same
  obtain ⟨active, done, effective⟩ := same
  intro asked
  have after := h (kept asked)
  rwa [CycleBegun, active, done, effective] at after

/-! ## Units of a turn -/

section Units

variable (s : State)

theorem keepsRefresh_readUnit : KeepsRefresh s (readUnit s) := by
  intro asked
  by_cases due : cycleDue { s with step := 0, unit := .read } = true
  · right
    obtain ⟨inactive, done, effective, -⟩ := (cycleDue_iff _).1 due
    obtain ⟨p, begun⟩ := readStep_of_due due
    rw [readUnit, begun, cycleStart_of_due due]
    exact ⟨inactive, done, effective, rfl, rfl, rfl, rfl⟩
  · left
    rcases readStep_cases { s with step := 0, unit := .read } with ended | ⟨p, -, -, begun⟩
    · rw [readUnit, ended, cycleStart_of_not_due due, readIdle]
      split
      · exact asked
      · split <;> exact asked
    · rw [readUnit, begun, cycleStart_of_not_due due]
      exact asked

theorem keepsRefresh_drainNext : KeepsRefresh s (drainNext s) := by
  rcases drainNext_cases s with ⟨_, _, -, -, begun⟩ | ⟨-, next⟩
  · rw [begun]
    exact keepsRefresh_of_cyc rfl
  · rw [next]
    exact keepsRefresh_readUnit s

theorem keepsRefresh_advance (u : TurnUnit) : KeepsRefresh s (advance u s) := by
  rcases advance_cases u s with ⟨z, -, next⟩ | next | next <;> rw [next]
  · exact keepsRefresh_of_cyc (by cases z <;> rfl)
  · exact (keepsRefresh_drainNext _).of_before rfl id
  · exact keepsRefresh_readUnit s

theorem keepsRefresh_runStep : KeepsRefresh s (runStep s) := by
  unfold runStep
  split
  · exact keepsRefresh_of_cyc rfl
  · exact keepsRefresh_of_cyc rfl
  · exact keepsRefresh_advance s _

theorem keepsRefresh_continueTurn (op : TxnOp) (r : Except Ferr (List U16)) :
    KeepsRefresh s (continueTurn op r s) := by
  match op, r with
  | .read _ .modeRead, .ok _ => exact keepsRefresh_runStep s
  | .read _ .modeRead, .error _ => exact keepsRefresh_advance s _
  | .read _ (.partRead _ _), .ok _ | .read _ (.partRead _ _), .error _ =>
    exact keepsRefresh_of_cyc rfl
  | .write _ .modeWrite, .ok _ =>
    unfold continueTurn
    dsimp only
    split
    · exact keepsRefresh_advance s _
    · exact (keepsRefresh_runStep { s with step := s.step + 1 }).of_before rfl id
  | .write _ .modeWrite, .error _ => exact keepsRefresh_advance s _
  | .write _ .drainWrite, .ok _ => exact keepsRefresh_drainNext s
  | .write _ .drainWrite, .error _ => exact keepsRefresh_readUnit s

end Units

/-! ## The end of a transaction -/

theorem startConditions_raiseIrq {f : IrqFlag} (h : f ≠ .cycleDone) (s : State) :
    startConditions (raiseIrq f s) = startConditions s := by
  have kept : irqSet .cycleDone (raiseIrq f s) = irqSet .cycleDone s := by simp [h]
  rw [startConditions, kept]
  rfl

theorem startConditions_recorded (c : Ferr) (s : State) :
    startConditions (recorded c s) = startConditions s := by
  rw [← recordResult_eq]
  unfold recordResult
  dsimp only
  split
  · rfl
  · exact startConditions_raiseIrq (by decide) _

theorem startConditions_modeComplete (s : State) :
    startConditions (modeComplete s) = startConditions s := by
  unfold modeComplete
  split
  · exact startConditions_raiseIrq (by decide) _
  · exact startConditions_raiseIrq (by decide) _
  · rfl
  · rfl

theorem startConditions_drainDone (s : State) :
    startConditions (drainDone s) = startConditions s := by
  unfold drainDone
  dsimp only
  split
  · exact startConditions_raiseIrq (by decide) _
  · rfl

/-- Only a partition read's result reaches the conditions: it may complete the cycle (R683). -/
theorem startConditions_applyResult {op : TxnOp} (other : ∀ c p b, op ≠ .read c (.partRead p b))
    (r : Except Ferr (List U16)) (s : State) :
    startConditions (applyResult op r s) = startConditions s := by
  match op, r with
  | .read c (.partRead p b), _ => exact absurd rfl (other c p b)
  | .read _ .modeRead, .ok _ | .read _ .modeRead, .error _ | .write _ .modeWrite, .error _
  | .write _ .drainWrite, .error _ => rfl
  | .write _ .modeWrite, .ok _ =>
    unfold applyResult
    dsimp only
    split
    · exact startConditions_modeComplete s
    · rfl
  | .write _ .drainWrite, .ok _ => exact startConditions_drainDone s

theorem startConditions_resultState {op : TxnOp} (other : ∀ c p b, op ≠ .read c (.partRead p b))
    (r : Except Ferr (List U16)) (s : State) :
    startConditions (resultState op r s) = startConditions s := by
  have noted : ∀ u, startConditions (noteAttempt op u) = startConditions u := fun u => by
    cases op <;> rfl
  rw [resultState, startConditions_applyResult other, noted, startConditions_recorded]
  rfl

/-- No result withdraws the request; every write makes it (R607, R684). -/
theorem resultState_keeps_refreshReq (op : TxnOp) (r : Except Ferr (List U16)) {s : State}
    (asked : s.cyc.refreshReq = true) : (resultState op r s).cyc.refreshReq = true := by
  have applied := stopBase_applyResult op r
    (noteAttempt op (recorded (codeOf r) { s with txn := none }))
  simp only [stopBase, Prod.mk.injEq] at applied
  obtain ⟨-, -, -, refresh⟩ := applied
  rw [resultState, refresh]
  cases op with
  | read => exact asked
  | write => rfl

theorem keepsRefresh_txnEnd (r : Except Ferr (List U16)) (s : State) :
    KeepsRefresh s (txnEnd r s) := by
  cases hx : s.txn with
  | none => rw [txnEnd_of_txn_none hx]; exact .inl
  | some x =>
    have kept : s.cyc.refreshReq = true → (resultState x.op r s).cyc.refreshReq = true :=
      resultState_keeps_refreshReq x.op r
    cases pending : s.stopPending with
    | some why =>
      rw [txnEnd_of_stop hx pending]
      intro asked
      rw [doStop_cyc]
      exact .inl (kept asked)
    | none =>
      rw [txnEnd_of_free hx pending]
      by_cases part : ∃ c p b, x.op = .read c (.partRead p b)
      · obtain ⟨c, p, b, op⟩ := part
        intro asked
        have ended : (continueTurn x.op r (resultState x.op r s)).cyc =
            (resultState x.op r s).cyc := by rw [op]; rfl
        exact .inl (ended ▸ kept asked)
      · refine (keepsRefresh_continueTurn _ _ r).of_before (startConditions_resultState ?_ r s) kept
        exact fun c p b op => part ⟨c, p, b, op⟩

theorem keepsRefresh_txnAnswer (n : Nat) (f : List Byte) (fe : Bool) (s : State) :
    KeepsRefresh s (txnAnswer n f fe s) := by
  unfold txnAnswer
  split
  · exact .inl
  · split
    · exact keepsRefresh_txnEnd _ s
    · split
      · exact keepsRefresh_txnEnd _ s
      · split <;> exact keepsRefresh_txnEnd _ s

/-! ## `tick_bit` -/

theorem keepsRefresh_deliverFrame (n : Nat) (f : List Byte) (s : State) :
    KeepsRefresh s (deliverFrame n f s) := by
  unfold deliverFrame
  split
  · exact keepsRefresh_of_cyc (snoopFrame_cyc _ _ _ _)
  · exact (keepsRefresh_txnAnswer _ _ _ (closeFrame s)).of_before rfl id
  · exact keepsRefresh_of_cyc rfl

theorem keepsRefresh_receiveTick {s t : State} (h : receiveTick exec s = .next t) :
    KeepsRefresh s t := by
  by_cases noGap : s.rx.inFrame = false ∨ s.rx.active = true
  · cases (receiveTick_of_no_gap noGap).symm.trans h
    exact .inl
  · obtain ⟨opened, silent⟩ : s.rx.inFrame = true ∧ s.rx.active = false := by simpa using noGap
    rw [receiveTick_of_gap opened silent] at h
    dsimp only at h
    split at h
    · obtain ⟨n, f, ended⟩ := frameEnd_eq_deliverFrame { s with rx.gap := min (s.rx.gap + 1) 255 }
      cases ended.symm.trans h
      exact (keepsRefresh_deliverFrame n f _).of_before rfl id
    · cases h
      exact keepsRefresh_of_cyc rfl

/-- The transmitter reaches neither the cycle nor what its start asks for (R561). -/
theorem transmitTick_cycle (s : State) :
    startConditions (transmitTick s) = startConditions s ∧ (transmitTick s).cyc = s.cyc := by
  by_cases sending : s.seq = .tx
  · rw [transmitTick_of_tx sending]
    split
    · exact ⟨rfl, rfl⟩
    · split <;> exact ⟨rfl, rfl⟩
  · rw [transmitTick_of_ne_tx sending]
    exact ⟨rfl, rfl⟩

theorem keepsRefresh_tickBit {s t : State} (h : tickBit exec s = .next t) : KeepsRefresh s t := by
  rw [tickBit, countBit_eq] at h
  obtain ⟨conditions, cyc⟩ := transmitTick_cycle { s with bitTicks := s.bitTicks + 1 }
  exact (keepsRefresh_receiveTick h).of_before conditions fun asked => by rw [cyc]; exact asked

/-! ## `tick_ms` -/

theorem keepsRefresh_turnStart (s : State) : KeepsRefresh s (turnStart s) :=
  keepsRefresh_advance s _

theorem keepsRefresh_offTick (s : State) : KeepsRefresh s (offTick s) := by
  by_cases ready : quiescent s
  · rw [offTick_of_quiescent ready]
    refine (keepsRefresh_turnStart _).of_before ?_ fun asked => (setArb_cyc .master s) ▸ asked
    unfold setArb
    split
    · rfl
    · exact startConditions_raiseIrq (by decide) _
  · rw [offTick_of_not_quiescent ready]
    exact .inl

theorem keepsRefresh_listenTick (s : State) : KeepsRefresh s (listenTick s) := by
  unfold listenTick
  rw [settleNat_eq]
  dsimp only
  split
  · exact (keepsRefresh_turnStart _).of_before rfl id
  · exact keepsRefresh_of_cyc rfl

theorem keepsRefresh_guardTick (s : State) : KeepsRefresh s (guardTick s) := by
  unfold guardTick
  split <;> exact keepsRefresh_of_cyc rfl

theorem keepsRefresh_waitTick (s : State) : KeepsRefresh s (waitTick s) := by
  unfold waitTick
  rw [settleNat_eq]
  dsimp only
  split
  · split <;> exact (keepsRefresh_txnEnd _ _).of_before rfl id
  · exact keepsRefresh_of_cyc rfl

theorem keepsRefresh_pauseTick (s : State) : KeepsRefresh s (pauseTick s) := by
  unfold pauseTick
  rw [settleNat_eq]
  dsimp only
  split
  · exact (keepsRefresh_runStep _).of_before rfl id
  · exact keepsRefresh_of_cyc rfl

theorem keepsRefresh_tickMs (s : State) : KeepsRefresh s (tickMs s) := by
  have counted : ∀ {t}, KeepsRefresh (countMs s) t → KeepsRefresh s t := fun h =>
    h.of_before (by rw [countMs_eq]; rfl) (by rw [countMs_eq]; exact id)
  unfold tickMs
  cases s.seq with
  | off => exact counted (keepsRefresh_offTick _)
  | listen => exact counted (keepsRefresh_listenTick _)
  | guard => exact counted (keepsRefresh_guardTick _)
  | tx => exact counted .inl
  | wait => exact counted (keepsRefresh_waitTick _)
  | pause => exact counted (keepsRefresh_pauseTick _)

end Sys2Proof.Proofs.RefreshRequest
end

section
/-! PROOFS. The turn sequencer (45_turn_sequencer.md): the windows before a turn and in a mode
sequence, the units in their order, the mode value merged bit by bit, and the statements of that family. -/

namespace Sys2Proof.Proofs.TurnSequencer

open Sys2Proof Sys2Proof.Machine Sys2Proof.Proofs.ReadStep Sys2Proof.Proofs.RefreshRequest
open Sys2Proof.Proofs.HostAccess (getLsbD_of_extractLsb'_eq)
open Sys2Proof.Proofs.CtrlWrites (writeCtrl_of_en_kept handle_busWrite_ctrl)
open Sys2Proof.Proofs.ArbiterEvents (countMs_eq)
open Sys2Proof.Proofs.WriteQueue (nextEvent_snd)

variable {s : State}

/-! ## The read step -/

/-- Only a tick can withdraw the refresh request without a reset (R685). -/
theorem refreshCleared_cases {e : Event} {s t : State} (h : handle exec e s = .next t)
    (asked : s.cyc.refreshReq = true) (cleared : t.cyc.refreshReq = false) :
    e = .reset ∨ (e = .tickMs ∨ e = .tickBit) ∧ CycleBegun s t := by
  have notKept : ¬t.cyc.refreshReq = true := by simp [cleared]
  cases e with
  | reset => exact .inl rfl
  | tickMs =>
    cases h
    exact .inr ⟨.inl rfl, (keepsRefresh_tickMs s asked).resolve_left notKept⟩
  | tickBit => exact .inr ⟨.inr rfl, (keepsRefresh_tickBit h asked).resolve_left notKept⟩
  | rxStart => cases h; exact absurd ((rxStart_cyc s).symm ▸ asked) notKept
  | rxByte b ferr => cases h; exact absurd ((rxByte_cyc b ferr s).symm ▸ asked) notKept
  | busRead a => cases h; exact absurd asked notKept
  | busWrite a v => exact absurd (busWrite_keeps_refreshReq h asked) notKept

/-- Settles O51: a step that clears the request starts a cycle; a read step is its start check
followed by one of its four outcomes. -/
theorem readStepTakesLowestPartition : Obligations.ReadStepTakesLowestPartition := by
  refine ⟨fun s t h asked cleared => ?step, fun s => ?outcomes⟩
  case step =>
    rw [step, nextEvent_snd] at h
    exact refreshCleared_cases (s := { s with script := s.script.tail }) h asked cleared
  case outcomes =>
    intro due
    refine ⟨cycleStart s, fun yes => cycleStart_of_due ((cycleDue_iff s).2 yes),
      fun no => cycleStart_of_not_due (mt (cycleDue_iff s).1 no), readStep_of_no_cycle,
      readStep_of_no_partition, readStep_of_all_done, fun p active pending lowest => ?_⟩
    exact readStep_of_lowest active (lowestBit_eq_some_iff.2 ⟨pending, lowest⟩)

/-! ## Invalidation -/

/-- INVALIDATE written alone, with EN kept, is the invalidation (R103, R690). -/
theorem writeCtrl_invalidate {v : Word} (hv : v.extractLsb' 0 4 = if s.en then 5#4 else 4#4) :
    writeCtrl v s = invalidate s := by
  have bit : ∀ {i}, i < 4 → v.getLsbD (0 + i) = (if s.en then 5#4 else 4#4).getLsbD i :=
    getLsbD_of_extractLsb'_eq hv
  have kept : s.en = v.getLsbD 0 := by rw [bit (i := 0) (by decide)]; cases s.en <;> rfl
  have reinit : v.getLsbD 1 = false := by rw [bit (i := 1) (by decide)]; cases s.en <;> rfl
  have invalidate : v.getLsbD 2 = true := by rw [bit (i := 2) (by decide)]; cases s.en <;> rfl
  have refresh : v.getLsbD 3 = false := by rw [bit (i := 3) (by decide)]; cases s.en <;> rfl
  rw [writeCtrl_of_en_kept kept, reinit, invalidate, refresh]
  rfl

/-- A partition read is in its guard, on the line or awaiting its answer (R690). -/
theorem partReadInFlight_iff (s : State) : partReadInFlight s = true ↔
    (s.seq = .guard ∨ s.seq = .tx ∨ s.seq = .wait) ∧
      ∃ x c p b, s.txn = some x ∧ x.op = .read c (.partRead p b) := by
  have position : (inTxn s || decide (s.seq = .guard)) = true ↔
      s.seq = .guard ∨ s.seq = .tx ∨ s.seq = .wait := by
    simp [HostAccess.inTxn_iff, or_comm]
  unfold partReadInFlight
  split
  · rename_i a st c p b hx
    rw [position]
    exact (and_iff_left ⟨_, c, p, b, hx, rfl⟩).symm
  · rename_i other
    refine iff_of_false nofun ?_
    rintro ⟨-, ⟨a, st, op⟩, c, p, b, hx, rfl⟩
    exact other a st c p b hx

/-- Settles O10: the write is the invalidation, whose one condition is the read in flight. -/
theorem invalidateClearsValues : Obligations.InvalidateClearsValues := by
  intro v s hv
  refine ⟨invalidate s, ?_, fun i => rfl, ?_, rfl⟩
  · rw [handle_busWrite_ctrl, writeCtrl_invalidate hv]
  · rw [← partReadInFlight_iff]
    exact Bool.or_eq_true_iff

/-! ## The mode value -/

theorem getLsbD_mergeField {k : Nat} (hk : k < 16) (mask m : U16) (code : Byte) :
    (mergeField mask m code).getLsbD k =
      if mask.getLsbD k = true then code.getLsbD k else m.getLsbD k := by
  rw [mergeField, BitVec.getLsbD_or, BitVec.getLsbD_and, BitVec.getLsbD_and, BitVec.getLsbD_not,
    BitVec.getLsbD_setWidth]
  cases mask.getLsbD k <;> simp [hk]

/-- The two masks are disjoint (R666). -/
theorem hotMask_disjoint {k : Nat} (zone : (0x002F#16).getLsbD k = true) :
    (0x0050#16).getLsbD k = false := by
  have both : ((0x002F#16).getLsbD k && (0x0050#16).getLsbD k) = false :=
    BitVec.getLsbD_and.symm.trans BitVec.getLsbD_zero
  rwa [zone, Bool.true_and] at both

/-- A bit of the merged value comes from the latched code under whose mask it lies (R666). -/
theorem getLsbD_mergeMode {k : Nat} (hk : k < 16) (r : ModeRun) (m : U16) :
    (mergeMode r m).getLsbD k =
      if r.latZ = true ∧ (0x002F#16).getLsbD k = true then r.zcode.getLsbD k
      else if r.latH = true ∧ (0x0050#16).getLsbD k = true then r.hcode.getLsbD k
      else m.getLsbD k := by
  unfold mergeMode
  cases zone : (0x002F#16).getLsbD k with
  | true =>
    have hot := hotMask_disjoint zone
    cases r.latZ <;> cases r.latH <;> simp [getLsbD_mergeField hk, zone, hot]
  | false => cases r.latZ <;> cases r.latH <;> simp [getLsbD_mergeField hk, zone]

/-- A latched zone code that lies under the zone mask is read back from the merged value (R673). -/
theorem mergeMode_and_zoneMask {r : ModeRun} (latched : r.latZ = true)
    (within : r.zcode.setWidth 16 &&& 0x002F#16 = r.zcode.setWidth 16) (m : U16) :
    mergeMode r m &&& 0x002F#16 = r.zcode.setWidth 16 := by
  rw [← within]
  refine BitVec.eq_of_getLsbD_eq fun k hk => ?_
  rw [BitVec.getLsbD_and, BitVec.getLsbD_and, getLsbD_mergeMode hk, BitVec.getLsbD_setWidth]
  cases zone : (0x002F#16).getLsbD k <;> simp [latched, hk]

/-- Settles O53: the merge bit by bit, whose zone bits are the code's; the programs are tables. -/
theorem modeMergeAndPrograms : Obligations.ModeMergeAndPrograms := by
  refine ⟨fun r m k hk => getLsbD_mergeMode hk r m, fun c named r m latched code => ?named,
    fun r => ⟨fun antifreeze => ?antifreeze, fun normal => ?normal⟩⟩
  case named =>
    have codes : ∀ c ∈ [0x08#8, 0x24#8, 0x22#8, 0x04#8, 0x02#8, 0x01#8],
        c.setWidth 16 &&& 0x002F#16 = c.setWidth 16 ∧ c &&& 0x50#8 = 0#8 := by decide
    obtain ⟨within, noHot⟩ := codes c named
    subst code
    exact ⟨mergeMode_and_zoneMask latched within m, noHot⟩
  case antifreeze => simp [program, lastStep, antifreeze, antifreezeStep]
  case normal => simp [program, lastStep, normal, normalStep]

/-! ## The windows -/

/-- Outside a drain `drain_ms` stands still at a `tick_ms` (R580). -/
theorem countMs_of_no_drain (h : inTurn s = false ∨ s.unit ≠ .drain) : countMs s =
    { s with
      quietMs := min (s.quietMs + 1) 4294967295
      cyc := { s.cyc with sinceMs := min (s.cyc.sinceMs + 1) 4294967295 }
      msTicks := s.msTicks + 1 } := by
  have stands : (inTurn s && decide (s.unit = .drain)) = false := by
    rcases h with rest | other <;> simp [*]
  rw [countMs_eq, stands]
  rfl

theorem listenTick_eq (s : State) : listenTick s =
    if satInc s.listenMs < s.cfg.tListen.toNat then { s with listenMs := satInc s.listenMs }
    else turnStart { s with listenMs := satInc s.listenMs } := by
  simp only [listenTick, settleNat_eq, ← Nat.not_lt, ite_not]

theorem pauseTick_eq (s : State) : pauseTick s =
    if satInc s.pauseMs < s.cfg.tPause.toNat then { s with pauseMs := satInc s.pauseMs }
    else runStep { s with pauseMs := satInc s.pauseMs, step := s.step + 1 } := by
  simp only [pauseTick, settleNat_eq, ← Nat.not_lt, ite_not]

/-- Settles O43: each window counts its own timer on the state just counted, then compares it. -/
theorem listenAndPauseWindows : Obligations.ListenAndPauseWindows := by
  intro s u n k
  refine ⟨fun listening => ?listen, fun pausing noDrain => ?pause⟩
  case listen =>
    have ticked : handle exec .tickMs s = .next (listenTick (countMs s)) := by
      simp [handle, tickMs, listening]
    rw [ticked, countMs_of_no_drain (.inl (by simp [inTurn, listening])), listenTick_eq]
    rfl
  case pause =>
    have ticked : handle exec .tickMs s = .next (pauseTick (countMs s)) := by
      simp [handle, tickMs, pausing]
    rw [ticked, countMs_of_no_drain (.inr noDrain), pauseTick_eq]
    rfl

/-! ## The units of a turn -/

/-- A zone has work: it is enabled and a sub-slot is pending (R651). -/
theorem zoneReady_iff (z : Zone) (s : State) : zoneReady z s = true ↔
    modeEnOf z s = true ∧ ((slotsOf z s).zone.pend = true ∨ (slotsOf z s).hot.pend = true) := by
  simp [zoneReady]

theorem advance_mode0_of_ready (ready : zoneReady .z0 s = true) :
    advance .mode0 s = modeStart .z0 s := if_pos ready

/-- A unit from which zone 1 is the next to ask starts its sequence (R650, R651). -/
theorem advance_of_zone1 {u : TurnUnit} (here : u = .mode0 ∧ ¬zoneReady .z0 s = true ∨ u = .mode1)
    (ready : zoneReady .z1 s = true) : advance u s = modeStart .z1 s := by
  rcases here with ⟨rfl, passed⟩ | rfl
  · exact (if_neg passed).trans (if_pos ready)
  · exact if_pos ready

/-- With no zone left to serve the drain is next (R650, R651). -/
theorem advance_of_no_zone {u : TurnUnit}
    (here : u = .mode0 ∧ ¬zoneReady .z0 s = true ∧ ¬zoneReady .z1 s = true ∨
      u = .mode1 ∧ ¬zoneReady .z1 s = true ∨ u = .drain) : advance u s = drainUnit s := by
  rcases here with ⟨rfl, passed0, passed1⟩ | ⟨rfl, passed1⟩ | rfl
  · exact (if_neg passed0).trans (if_neg passed1)
  · exact if_neg passed1
  · rfl

/-- The drain begins with its first write while its budget, still whole, is not 0 (R675, R676). -/
theorem drainUnit_of_entry {h : WqEntry} {rest : List WqEntry} (queue : s.wq = h :: rest)
    (budget : 0 < s.cfg.tDrain.toNat) : drainUnit s =
      beginWrite h.start h.vals .drainWrite { s with step := 0, unit := .drain, drainMs := 0 } := by
  simp [drainUnit, drainNext, queue, budget]

theorem drainUnit_of_nothing (nothing : s.wq = [] ∨ s.cfg.tDrain.toNat = 0) :
    drainUnit s = readUnit { s with step := 0, unit := .drain, drainMs := 0 } := by
  rcases drainNext_cases { s with step := 0, unit := .drain, drainMs := 0 } with
    ⟨h, rest, queue, budget, -⟩ | ⟨-, next⟩
  · rcases nothing with empty | zero
    · exact absurd (empty.symm.trans queue) nofun
    · exact absurd (zero ▸ budget) (Nat.not_lt_zero 0)
  · exact next

/-- With no effective partition and no cycle the read unit ends the turn (R653). -/
theorem readStep_of_nothing (none : effEn s = 0#8) (inactive : s.cyc.active = false) :
    readStep s = endTurn s := by
  have same : cycleStart s = s := cycleStart_of_not_due fun due => by
    obtain ⟨-, -, effective, -⟩ := (cycleDue_iff s).1 due
    exact effective none
  rw [readStep_of_no_cycle (same.symm ▸ inactive), same]

/-- Settles O50: each unit is passed on the condition the table gives for it. -/
theorem turnRunsUnitsInOrder : Obligations.TurnRunsUnitsInOrder := by
  intro s
  simp only [← zoneReady_iff]
  refine ⟨rfl, fun now => ⟨advance_mode0_of_ready now, rfl, rfl⟩,
    fun u here now => ⟨advance_of_zone1 here now, rfl, rfl⟩, fun u here => ?drain, rfl⟩
  rw [advance_of_no_zone here]
  refine ⟨fun h rest queue budget => drainUnit_of_entry queue budget,
    fun nothing => drainUnit_of_nothing nothing, fun nothing none inactive => ?_⟩
  rw [drainUnit_of_nothing nothing, readUnit]
  exact readStep_of_nothing none inactive

theorem slotsOf_modeStart_of_ne {y z : Zone} (other : y ≠ z) (s : State) :
    slotsOf y (modeStart z s) = slotsOf y s := by
  match y, z with
  | .z0, .z1 | .z1, .z0 => rfl
  | .z0, .z0 | .z1, .z1 => exact absurd rfl other

/-- Settles O52: the sequence latches its own zone's sub-slots, and nothing of the other's. -/
theorem modeSequenceStarts : Obligations.ModeSequenceStarts := by
  intro z s
  obtain ⟨unit, step, seq, -, -, txn⟩ := modeStart_fields z s
  have others : ∀ y, y ≠ z → slotsOf y (modeStart z s) = slotsOf y s := fun y other =>
    slotsOf_modeStart_of_ne other s
  cases z <;> exact ⟨unit, step, seq, rfl, rfl, rfl, txn, others, rfl⟩

end Sys2Proof.Proofs.TurnSequencer
end

section
/-! PROOFS. The command words (30_encoding.md R301, R302): a word is put together from its fields,
no two rows of the opcode map match it, and the encoding of a command decodes to the command. -/

namespace Sys2Proof.Proofs.CommandWords

open Sys2Proof Sys2Proof.Machine Sys2Proof.Proofs.HostAccess Sys2Proof.Proofs.IllegalWords

/-! ## A word and its fields -/

theorem commandWord_fields (op b : Byte) (l : BitVec 9) :
    highField (commandWord op b l) = 0#7 ∧ lField (commandWord op b l) = l ∧
    bField (commandWord op b l) = b ∧ opField (commandWord op b l) = op := by
  simp (disch := decide) only [highField, lField, bField, opField, commandWord,
    BitVec.extractLsb'_append_eq_of_le, BitVec.extractLsb'_append_eq_of_add_le, Nat.reduceSub,
    Nat.sub_self, BitVec.extractLsb'_eq_self, and_self]

/-- R301: the word as the sum of its shifted fields. -/
theorem commandWord_eq_or (op b : Byte) (l : BitVec 9) : commandWord op b l =
    op.setWidth 32 ||| (b.setWidth 32 <<< 8) ||| (l.setWidth 32 <<< 16) := by
  rw [commandWord, ← BitVec.setWidth_eq (0#7 ++ l ++ b ++ op),
    BitVec.setWidth_append_append_append_eq_shiftLeft_setWidth_or]
  simp [BitVec.or_comm, BitVec.or_assoc]

theorem commandWord_of_b_zero (op : Byte) (l : BitVec 9) :
    commandWord op 0#8 l = op.setWidth 32 ||| (l.setWidth 32 <<< 16) := by
  simp [commandWord_eq_or]

theorem commandWord_of_l_zero (op b : Byte) :
    commandWord op b 0#9 = op.setWidth 32 ||| (b.setWidth 32 <<< 8) := by
  simp [commandWord_eq_or]

/-! ## Rows of the opcode map -/

theorem row_eq_of_opField_eq {r q : CommandRow} (hr : r ∈ commandRows) (hq : q ∈ commandRows)
    (same : opField r.pattern = opField q.pattern) : r = q := by
  have distinct : (commandRows.map fun r => opField r.pattern).Nodup := by decide
  exact List.inj_on_of_nodup_map distinct hr hq same

/-- R302: the row a word matches gives the command, since no other row has its opcode. -/
theorem decodeCommand_of_row {r : CommandRow} (hr : r ∈ commandRows) {w : Word}
    (hit : w &&& r.mask = r.pattern) : decodeCommand w = .ok (r.operands w) := by
  unfold decodeCommand
  cases found : commandRows.find? (fun r => w &&& r.mask == r.pattern) with
  | none => exact absurd (beq_iff_eq.2 hit) (List.find?_eq_none.1 found r hr)
  | some q =>
    have hq := List.mem_of_find?_eq_some found
    have first : w &&& q.mask = q.pattern := by simpa using List.find?_some found
    obtain ⟨-, op, -⟩ := (and_row_mask_eq_pattern_iff hr w).1 hit
    obtain ⟨-, op', -⟩ := (and_row_mask_eq_pattern_iff hq w).1 first
    rw [row_eq_of_opField_eq hq hr (op'.symm.trans op)]

/-- A word whose fields stay within the row's masks is the row's command. -/
theorem decodeCommand_commandWord {r : CommandRow} (hr : r ∈ commandRows) {b : Byte}
    {l : BitVec 9} (hl : l &&& lField r.mask = 0#9) (hb : b &&& bField r.mask = 0#8) :
    decodeCommand (commandWord (opField r.pattern) b l) =
      .ok (r.operands (commandWord (opField r.pattern) b l)) := by
  obtain ⟨high, lPart, bPart, op⟩ := commandWord_fields (opField r.pattern) b l
  refine decodeCommand_of_row hr ((and_row_mask_eq_pattern_iff hr _).2 ?_)
  rw [high, lPart, bPart, op]
  exact ⟨rfl, rfl, hl, hb⟩

/-! ## Encodings decode -/

/-- R722: bits 0 and 1 of L are the zone and the sub-field. -/
theorem modeReq_fields (op b : Byte) (z : Zone) (sub : SubField) :
    zoneField (commandWord op b (modeReqL z sub)) = z ∧
    subField (commandWord op b (modeReqL z sub)) = sub := by
  obtain ⟨-, lPart, -, -⟩ := commandWord_fields op b (modeReqL z sub)
  have bit0 := getLsbD_of_extractLsb'_eq lPart (show 0 < 9 by decide)
  have bit1 := getLsbD_of_extractLsb'_eq lPart (show 1 < 9 by decide)
  rw [zoneField, subField, bit0, bit1]
  cases z <;> cases sub <;> exact ⟨rfl, rfl⟩

/-- A row whose only operand is the length L (R302). -/
theorem decodeCommand_lengthRow {r : CommandRow} (hr : r ∈ commandRows)
    (free : lField r.mask = 0#9) {f : BitVec 9 → Instr} (operand : ∀ w, r.operands w = f (lField w))
    (l : BitVec 9) : decodeCommand (commandWord (opField r.pattern) 0#8 l) = .ok (f l) := by
  obtain ⟨-, lPart, -, -⟩ := commandWord_fields (opField r.pattern) 0#8 l
  have kept : l &&& lField r.mask = 0#9 := by rw [free, BitVec.and_zero]
  rw [decodeCommand_commandWord hr kept BitVec.zero_and, operand, lPart]

/-- R302: the word of a command decodes to the command with its operands. -/
theorem decodeCommand_of_encode {i : Instr} {w : Word} (h : encode i = some (.word w)) :
    decodeCommand w = .ok i := by
  have row {k : Nat} (hk : k < commandRows.length) := List.getElem_mem hk
  have lengthRow {k : Nat} (hk : k < commandRows.length) := decodeCommand_lengthRow (row hk)
  cases i with
  | nop => cases h; decide
  | crcInit => cases h; decide
  | prsReq => cases h; decide
  | crcByte b =>
    cases h
    obtain ⟨-, -, operand, -⟩ := commandWord_fields 0x02#8 b 0#9
    exact (decodeCommand_commandWord (row (k := 2) (by decide)) rfl BitVec.and_zero).trans
      (congrArg (fun b => Except.ok (Instr.crcByte b)) operand)
  | crcBuf l => cases h; exact lengthRow (k := 3) (by decide) rfl (fun _ => rfl) l
  | bldRead l => cases h; exact lengthRow (k := 4) (by decide) rfl (fun _ => rfl) l
  | bldWrite l => cases h; exact lengthRow (k := 5) (by decide) rfl (fun _ => rfl) l
  | bldAck l => cases h; exact lengthRow (k := 6) (by decide) rfl (fun _ => rfl) l
  | prsAns l => cases h; exact lengthRow (k := 8) (by decide) rfl (fun _ => rfl) l
  | wqPush l => cases h; exact lengthRow (k := 9) (by decide) rfl (fun _ => rfl) l
  | modeReq z sub code =>
    cases h
    obtain ⟨zone, field⟩ := modeReq_fields 0x31#8 code z sub
    obtain ⟨-, -, operand, -⟩ := commandWord_fields 0x31#8 code (modeReqL z sub)
    have high : modeReqL z sub &&& 0x1FC#9 = 0#9 := by cases z <;> cases sub <;> rfl
    refine (decodeCommand_commandWord (row (k := 10) (by decide)) high BitVec.and_zero).trans ?_
    exact congrArg Except.ok (congr (congrArg₂ Instr.modeReq zone field) operand)
  | _ => cases h

/-- The word of a command with a length operand. -/
theorem decodeCommand_length {i : Instr} {op : Byte} {l : BitVec 9}
    (h : encode i = some (.word (commandWord op 0#8 l))) :
    decodeCommand (op.setWidth 32 ||| (l.setWidth 32 <<< 16)) = .ok i :=
  commandWord_of_b_zero op l ▸ decodeCommand_of_encode h

/-- Settles O19: the words are compared with the rows of the opcode map, the frames with their
checksums. -/
theorem writtenOutCodesDecode : Obligations.WrittenOutCodesDecode := by
  refine ⟨?nop, ?crcByte, ?crcBuf, ?bldWrite, ?modeReq, ?request, ?answer, ?ack⟩
  case nop => exact decodeCommand_of_encode (i := .nop) rfl
  case crcByte => exact decodeCommand_of_encode (i := .crcByte 0x01#8) rfl
  case crcBuf => exact decodeCommand_of_encode (i := .crcBuf 256#9) rfl
  case bldWrite => exact decodeCommand_of_encode (i := .bldWrite 123#9) rfl
  case modeReq => exact decodeCommand_of_encode (i := .modeReq .z1 .hotWater 0x40#8) rfl
  case request => decide +kernel
  case answer => decide +kernel
  case ack => decide +kernel

end Sys2Proof.Proofs.CommandWords
end

section
/-! PROOFS. The host commands (46_host_commands.md R700–R722): each runs from `beginCommand` to
`finish` (R705, R731), and the statements of that family. -/

namespace Sys2Proof.Proofs.HostCommands

open Sys2Proof Sys2Proof.Machine Sys2Proof.Proofs.CommandWords Sys2Proof.Proofs.FrameEncoder
open Sys2Proof.Proofs.WireFrames (parseAnswer_ok)

/-! ## The completion of a command (R705, R731) -/

theorem finish_eq (c : Cerr) (s : State) : finish c s =
    { s with
      host := { s.host with cerr := c }
      irqStatus := if c = .ok then s.irqStatus else s.irqStatus ||| 0x100#9 } := by
  cases c <;> rfl

/-- A command that ends with an error changes CMD_STATUS and CMD_ERR only. -/
theorem finish_beginCommand_of_ne_ok {c : Cerr} (h : c ≠ .ok) (s : State) :
    finish c (beginCommand s) =
      { s with
        host := { s.host with cerr := c, ferr := .ok }
        irqStatus := s.irqStatus ||| 0x100#9 } := by
  rw [finish_eq, if_neg h]
  rfl

/-- A command whose range check fails ends with BAD_RANGE. -/
theorem next_badRange {p : Prop} [Decidable p] (out : p) (s t : State) :
    (.next (if p then finish .badRange (beginCommand s) else t) : Result) =
      .next { s with
        host := { s.host with cerr := .badRange, ferr := .ok }
        irqStatus := s.irqStatus ||| 0x100#9 } :=
  congrArg _ ((if_pos out).trans (finish_beginCommand_of_ne_ok (by decide) s))

/-- A command whose check passes ends as its body says. -/
theorem next_inRange {p : Prop} [Decidable p] (within : ¬p) (s t : State) :
    (.next (if p then s else t) : Result) = .next t :=
  congrArg _ (if_neg within)

/-! ## What is written to HBUF and HVAL -/

/-- A block written from index 0 replaces the words of the block only. -/
theorem memRead_memWriteAll_zero {α : Type} (m : Memory α) (vs : List α) (free fill : α) (i : Nat) :
    (memRead (memWriteAll m 0 vs) i).getD free =
      if i < vs.length then vs.getD i fill else (memRead m i).getD free := by
  split
  · rename_i inside
    have read := memRead_memWriteAll_in m 0 vs i inside
    rw [Nat.zero_add] at read
    rw [read, List.getD_eq_getElem vs fill inside, Option.getD_some]
  · rw [memRead_memWriteAll_out _ _ _ _ (by omega)]

/-- What a build command leaves: the frame in HBUF from index 0, its length in HLEN (R710–R712). -/
theorem finish_putFrame {fr : List Byte} {n : Nat} (length : fr.length = n) (s : State) :
    (∀ i, hbufAt (finish .ok (putFrame fr (beginCommand s))) i =
      if i < n then byteAt fr i else hbufAt s i) ∧
    finish .ok (putFrame fr (beginCommand s)) = { s with
      host := { s.host with
        hbuf := memWriteAll s.host.hbuf 0 fr, hlen := BitVec.ofNat 9 n, cerr := .ok
        ferr := .ok } } := by
  subst length
  exact ⟨fun i => memRead_memWriteAll_zero s.host.hbuf fr (Config.hbufFree s.memEpoch i) 0#8 i, rfl⟩

/-- HVAL where a block of values was written from index 0 (R715, R716). -/
theorem hvalAt_of_block {s t : State} {vs : List U16} (epoch : t.memEpoch = s.memEpoch)
    (block : t.host.hval = memWriteAll s.host.hval 0 vs) (i : Nat) :
    hvalAt t i = if i < vs.length then vs.getD i 0#16 else hvalAt s i := by
  rw [hvalAt, epoch, block, memRead_memWriteAll_zero _ _ _ 0#16, hvalAt]

theorem hvalWords_length (n : Nat) (s : State) : (hvalWords n s).length = n := by
  simp [hvalWords]

/-! ## The words of a parse result (R113) -/

theorem word1_eq_or (r : ParseResult) :
    r.word1 = r.start.setWidth 32 ||| (r.count.setWidth 32 <<< 16) := by
  rw [ParseResult.word1, ← BitVec.setWidth_eq (r.count ++ r.start : Word),
    BitVec.setWidth_append_eq_shiftLeft_setWidth_or, BitVec.or_comm]

theorem word0_eq_or (r : ParseResult) : r.word0 =
    r.kind.code.setWidth 32 ||| (r.addr.setWidth 32 <<< 8) ||| (r.func.setWidth 32 <<< 16) := by
  rw [BitVec.or_comm _ (r.func.setWidth 32 <<< 16), BitVec.or_comm (r.kind.code.setWidth 32),
    ParseResult.word0, ← BitVec.setWidth_eq (0#8 ++ r.func ++ r.addr ++ 0#6 ++ r.kind.code : Word),
    BitVec.setWidth_append_eq_shiftLeft_setWidth_or,
    BitVec.setWidth_append_append_append_eq_shiftLeft_setWidth_or]
  simp [BitVec.shiftLeft_or_distrib, ← BitVec.shiftLeft_add, BitVec.or_assoc]

/-- PRES0 and PRES1 as the host reads them. -/
theorem busReadData_pres {s : State} {r : ParseResult} (h : s.host.pres = r) :
    busReadData 0x030#14 s =
      r.kind.code.setWidth 32 ||| (r.addr.setWidth 32 <<< 8) ||| (r.func.setWidth 32 <<< 16) ∧
    busReadData 0x034#14 s = r.start.setWidth 32 ||| (r.count.setWidth 32 <<< 16) := by
  subst h
  exact ⟨word0_eq_or _, word1_eq_or _⟩

/-- A count keeps its low 16 bits in the upper half of a word. -/
theorem setWidth_ofNat_shiftLeft (n : Nat) :
    (BitVec.ofNat 16 n).setWidth 32 <<< 16 = BitVec.ofNat 32 n <<< 16 := by
  apply BitVec.eq_of_getLsbD_eq
  intro i hi
  have inside : i - 16 < 16 := by omega
  simp only [BitVec.getLsbD_shiftLeft, BitVec.getLsbD_setWidth, BitVec.getLsbD_ofNat, inside,
    decide_true, Bool.true_and]

/-! ## What a command may change (R705) -/

/-- CMD and ARG, which no command writes. -/
def SameRequest (h g : HostPort) : Prop :=
  h.cmd = g.cmd ∧ h.argStart = g.argStart ∧ h.argAddr = g.argAddr ∧ h.argFunc = g.argFunc

/-- What the body of command `i` leaves to `finish`: of the host unit neither CMD nor ARG has
changed, the queue only by WQ.PUSH, the sub-slots only by MODE.REQ, and FERR is a parser's. -/
structure BodyEffect (i : Instr) (s u : State) : Prop where
  only : u = { s with host := u.host, wq := u.wq, slots0 := u.slots0, slots1 := u.slots1 }
  request : SameRequest u.host s.host
  queue : (∀ l, i ≠ .wqPush l) → u.wq = s.wq
  slots : (∀ z f c, i ≠ .modeReq z f c) → u.slots0 = s.slots0 ∧ u.slots1 = s.slots1
  code : u.host.ferr ≠ .ok → i = .prsReq ∨ ∃ l, i = .prsAns l

/-- A body that reaches no more than the host unit. -/
theorem BodyEffect.of_host {i : Instr} {s : State} {h : HostPort} (request : SameRequest h s.host)
    (code : h.ferr ≠ .ok → i = .prsReq ∨ ∃ l, i = .prsAns l) :
    BodyEffect i s { s with host := h } :=
  ⟨rfl, request, fun _ => rfl, fun _ => ⟨rfl, rfl⟩, code⟩

theorem bodyEffect_beginCommand (i : Instr) (s : State) : BodyEffect i s (beginCommand s) :=
  .of_host ⟨rfl, rfl, rfl, rfl⟩ (absurd rfl)

theorem bodyEffect_crcAcc (i : Instr) (v : U16) (s : State) :
    BodyEffect i s { beginCommand s with host.crcAcc := v } :=
  .of_host ⟨rfl, rfl, rfl, rfl⟩ (absurd rfl)

theorem bodyEffect_putFrame (i : Instr) (fr : List Byte) (s : State) :
    BodyEffect i s (putFrame fr (beginCommand s)) :=
  .of_host ⟨rfl, rfl, rfl, rfl⟩ (absurd rfl)

theorem bodyEffect_reportRequest (r : Except Ferr ParsedRequest) (s : State) :
    BodyEffect .prsReq s (reportRequest r (beginCommand s)) := by
  cases r with
  | error e => exact .of_host ⟨rfl, rfl, rfl, rfl⟩ fun _ => .inl rfl
  | ok q => cases q <;> exact .of_host ⟨rfl, rfl, rfl, rfl⟩ (absurd rfl)

theorem bodyEffect_reportAnswer (l : BitVec 9) (r : Except Ferr (List U16)) (s : State) :
    BodyEffect (.prsAns l) s (reportAnswer l r (beginCommand s)) := by
  cases r with
  | error e => exact .of_host ⟨rfl, rfl, rfl, rfl⟩ fun _ => .inr ⟨l, rfl⟩
  | ok vs => exact .of_host ⟨rfl, rfl, rfl, rfl⟩ (absurd rfl)

theorem bodyEffect_push (l : BitVec 9) (e : WqEntry) (s : State) :
    BodyEffect (.wqPush l) s { beginCommand s with wq := s.wq ++ [e] } :=
  ⟨rfl, ⟨rfl, rfl, rfl, rfl⟩, fun other => absurd rfl (other l), fun _ => ⟨rfl, rfl⟩, absurd rfl⟩

theorem bodyEffect_setSlots (z : Zone) (sub : SubField) (code : Byte) (sl : ZoneSlots)
    (s : State) : BodyEffect (.modeReq z sub code) s (setSlots z sl (beginCommand s)) := by
  cases z <;> exact ⟨rfl, ⟨rfl, rfl, rfl, rfl⟩, fun _ => rfl,
    fun other => absurd rfl (other _ sub code), absurd rfl⟩

/-- `t` is the completion of a body of command `i` from `s`. -/
def Finishes (i : Instr) (s t : State) : Prop :=
  ∃ c u, t = finish c u ∧ BodyEffect i s u

theorem BodyEffect.finishes {i : Instr} {s u : State} (h : BodyEffect i s u) (c : Cerr) :
    Finishes i s (finish c u) := ⟨c, u, rfl, h⟩

/-- A check that fails leaves the body out. -/
theorem finishes_check {i : Instr} {s t : State} (h : Finishes i s t) (c : Cerr) (p : Prop)
    [Decidable p] : Finishes i s (if p then finish c (beginCommand s) else t) := by
  split
  · exact (bodyEffect_beginCommand i s).finishes c
  · exact h

/-- R705: every command ends with `finish`, and its body keeps to the command's own state. -/
theorem exec_command_finishes {i : Instr} (h : isCommand i = true) (s : State) :
    ∃ t, exec i s = .next t ∧ Finishes i s t := by
  cases i with
  | nop => exact ⟨_, rfl, (bodyEffect_beginCommand _ s).finishes .ok⟩
  | crcInit => exact ⟨_, rfl, (bodyEffect_crcAcc _ _ s).finishes .ok⟩
  | crcByte b => exact ⟨_, rfl, (bodyEffect_crcAcc _ _ s).finishes .ok⟩
  | crcBuf l => exact ⟨_, rfl, finishes_check ((bodyEffect_crcAcc _ _ s).finishes .ok) _ _⟩
  | bldRead l => exact ⟨_, rfl, finishes_check ((bodyEffect_putFrame _ _ s).finishes .ok) _ _⟩
  | bldWrite l => exact ⟨_, rfl, finishes_check ((bodyEffect_putFrame _ _ s).finishes .ok) _ _⟩
  | bldAck l => exact ⟨_, rfl, finishes_check ((bodyEffect_putFrame _ _ s).finishes .ok) _ _⟩
  | prsReq => exact ⟨_, rfl, (bodyEffect_reportRequest _ s).finishes .ok⟩
  | prsAns l => exact ⟨_, rfl, (bodyEffect_reportAnswer l _ s).finishes .ok⟩
  | wqPush l =>
    have queued := bodyEffect_push l { start := s.host.argStart, vals := hvalWords l.toNat s } s
    exact ⟨_, rfl, finishes_check (finishes_check (queued.finishes .ok) _ _) _ _⟩
  | modeReq z sub code => exact ⟨_, rfl, (bodyEffect_setSlots z sub code _ s).finishes .ok⟩
  | _ => cases h

/-! ## The parse commands -/

theorem exec_prsReq {s : State} {r : Except Ferr ParsedRequest}
    (parsed : parseSlaveRequest s.host.hlen.toNat (hostFrame s) = r) :
    exec .prsReq s = .next (finish .ok (reportRequest r (beginCommand s))) :=
  parsed ▸ rfl

theorem exec_prsAns {l : BitVec 9} {s : State} {r : Except Ferr (List U16)}
    (parsed : parseAnswer s.host.hlen.toNat (hostFrame s) s.host.argAddr s.host.argFunc l.toNat =
      r) : exec (.prsAns l) s = .next (finish .ok (reportAnswer l r (beginCommand s))) :=
  parsed ▸ rfl

theorem hostFrame_length (s : State) : (hostFrame s).length = s.host.hlen.toNat := by
  simp [hostFrame, hbufBytes]

/-- As many values come from an answer as were asked for. -/
theorem parseAnswer_hostFrame_length {s : State} {a fn : Byte} {c : Nat} {vals : List U16}
    (h : parseAnswer s.host.hlen.toNat (hostFrame s) a fn c = .ok vals) : vals.length = c := by
  obtain ⟨-, -, length, -, rfl⟩ := parseAnswer_ok h
  refine valuesOf_length _ _ ?_
  rw [List.length_drop, hostFrame_length, length]
  omega

/-! ## The statements -/

/-- Settles O28: the body of a command keeps to the command's own state, and `finish` adds CERR and
CMD_ERR. -/
theorem commandsLeaveSequencerAlone : Obligations.CommandsLeaveSequencerAlone := by
  intro i s command
  obtain ⟨_, ran, c, u, rfl, only, request, queue, slots, code⟩ := exec_command_finishes command s
  have flags : u.irqStatus = s.irqStatus := (congrArg State.irqStatus only :)
  rw [finish_eq] at ran
  refine ⟨_, ran, ?frame, request, queue, slots, ?cmdErr, code⟩
  case frame =>
    exact congrArg (fun v : State => { v with
      host := { u.host with cerr := c }
      irqStatus := if c = Cerr.ok then u.irqStatus else u.irqStatus ||| 0x100#9 }) only
  case cmdErr =>
    dsimp only
    rw [flags]

/-- Settles O23: the words are those of the encoder; only CRC.BUF has a range to check. -/
theorem crcCommandsResult : Obligations.CrcCommandsResult := by
  refine ⟨⟨?nop, ?crcInit, fun b => ?crcByte, fun l => decodeCommand_length (op := 0x03#8) rfl⟩,
    fun s => ⟨rfl, rfl, fun _ => rfl, fun l => ?buf⟩⟩
  case nop => exact decodeCommand_of_encode (i := .nop) rfl
  case crcInit => exact decodeCommand_of_encode (i := .crcInit) rfl
  case crcByte =>
    have word := commandWord_of_l_zero 0x02#8 b
    exact word ▸ decodeCommand_of_encode (i := .crcByte b) rfl
  case buf =>
    rcases Nat.lt_or_ge 256 l.toNat with long | fits
    · rw [if_neg (Nat.not_le_of_lt long)]
      exact next_badRange long s _
    · rw [if_pos fits]
      exact next_inRange (Nat.not_lt_of_le fits) _ _

/-- Settles O24: in range, the built frame is put into HBUF; out of range, only the error is. -/
theorem buildCommandsResult : Obligations.BuildCommandsResult := by
  refine ⟨fun l => ⟨decodeCommand_length (op := 0x10#8) rfl,
    decodeCommand_length (op := 0x11#8) rfl, decodeCommand_length (op := 0x12#8) rfl⟩,
    fun l s => ⟨fun within => ?read, fun out => ?readOut⟩,
    fun l s => ⟨fun within => ?write, fun out => ?writeOut⟩,
    fun l s => ⟨fun within => ?ack, fun out => next_badRange out s _⟩⟩
  case read =>
    exact ⟨_, next_inRange (by simp only [Config.readCountMax]; omega) _ _,
      finish_putFrame (buildReadRequest_length ..) s⟩
  case readOut => exact next_badRange (by simp only [Config.readCountMax]; omega) s _
  case write =>
    have length := buildWriteRequest_length s.host.argAddr s.host.argStart (hvalWords l.toNat s)
    rw [hvalWords_length] at length
    obtain ⟨bytes, result⟩ := finish_putFrame length s
    refine ⟨_, next_inRange (by simp only [Config.writeCountMax]; omega) _ _, bytes, ?hlen, ?frame⟩
    case hlen =>
      rw [result]
      exact (BitVec.toNat_ofNat ..).trans (Nat.mod_eq_of_lt (by omega))
    case frame => rw [result]
  case writeOut => exact next_badRange (by simp only [Config.writeCountMax]; omega) s _
  case ack =>
    exact ⟨_, next_inRange (Nat.not_lt_of_le within) _ _, finish_putFrame (ackFrame_length ..) s⟩

/-- Settles O25: each result of the parser, reported in PRES0, PRES1 and HVAL. -/
theorem parseCommandsResult : Obligations.ParseCommandsResult := by
  refine ⟨⟨decodeCommand_of_encode (i := .prsReq) rfl,
    fun l => decodeCommand_length (op := 0x21#8) rfl⟩, fun s => ?request, fun l s => ?answer⟩
  case request =>
    cases parsed : parseSlaveRequest s.host.hlen.toNat
      ((List.range s.host.hlen.toNat).map (hbufAt s)) with
    | error e => exact ⟨_, exec_prsReq parsed, rfl, busReadData_pres (r := ParseResult.zero) rfl⟩
    | ok q =>
      refine ⟨_, exec_prsReq parsed, ?_⟩
      cases q with
      | readIntent a st c =>
        exact ⟨rfl, busReadData_pres (r := requestResult (.readIntent a st c)) rfl⟩
      | writeIntent a st vs =>
        obtain ⟨pres0, pres1⟩ := busReadData_pres
          (s := finish .ok (reportRequest (.ok (.writeIntent a st vs)) (beginCommand s))) rfl
        refine ⟨rfl, pres0, pres1.trans ?_, hvalAt_of_block rfl rfl⟩
        exact congrArg (st.setWidth 32 ||| ·) (setWidth_ofNat_shiftLeft vs.length)
  case answer =>
    cases parsed : parseAnswer s.host.hlen.toNat
      ((List.range s.host.hlen.toNat).map (hbufAt s)) s.host.argAddr s.host.argFunc l.toNat with
    | error e => exact ⟨_, exec_prsAns parsed, rfl, busReadData_pres (r := ParseResult.zero) rfl⟩
    | ok vs =>
      obtain ⟨pres0, pres1⟩ := busReadData_pres
        (s := finish .ok (reportAnswer l (.ok vs) (beginCommand s))) rfl
      refine ⟨_, exec_prsAns parsed, rfl, pres0, pres1.trans ?_, ?_⟩
      · simp [reportAnswer]
      · rw [← parseAnswer_hostFrame_length parsed]
        exact hvalAt_of_block rfl rfl

/-- Settles O26: the range is checked before the queue's room (R812). -/
theorem wqPushResult : Obligations.WqPushResult := by
  refine ⟨fun l => decodeCommand_length (op := 0x30#8) rfl, fun l s => ?_⟩
  have check : (l.toNat < 1 ∨ l.toNat > 123) ↔ ¬(1 ≤ l.toNat ∧ l.toNat ≤ 123) := by omega
  refine congrArg Host.Outcome.next (if_congr check ?_ (if_congr Iff.rfl ?_ rfl))
  · exact finish_beginCommand_of_ne_ok (by decide) s
  · exact finish_beginCommand_of_ne_ok (by decide) s

/-- Settles O27: zone and sub-field choose the sub-slot that the request replaces. -/
theorem modeReqResult : Obligations.ModeReqResult := by
  have decodes (z : Zone) (sub : SubField) (code : Byte) :=
    commandWord_eq_or 0x31#8 code (modeReqL z sub) ▸
      decodeCommand_of_encode (i := .modeReq z sub code) rfl
  exact ⟨fun code => ⟨decodes .z0 .zoneMode code, decodes .z1 .zoneMode code,
    decodes .z0 .hotWater code, decodes .z1 .hotWater code⟩, fun code s => ⟨rfl, rfl, rfl, rfl⟩⟩

end Sys2Proof.Proofs.HostCommands
end

section
/-! PROOFS. A step runs the decoded instruction (46_host_commands.md R705,
43_line_and_arbiter.md R553, R557): a legal word written to CMD, and a received frame at its end. -/

namespace Sys2Proof.Proofs.DecodedStep

open Sys2Proof Sys2Proof.Machine Sys2Proof.Proofs.NextEvent Sys2Proof.Proofs.FrameDelivery
open Sys2Proof.Proofs.BusAccess (handle_busWrite_cmd)
open Sys2Proof.Proofs.WriteQueue (nextEvent_snd)

theorem issueCommand_of_decodeCommand {w : Word} {i : Instr} (h : decodeCommand w = .ok i)
    (s : State) : issueCommand exec w s = exec i { s with host := { s.host with cmd := w } } := by
  simp only [issueCommand, h]

/-- R502, R503: a frame with no framing error and within the buffer is decoded in its role. -/
theorem receivedInstr_of_decodeFrame {s : State} {role : FrameRole} {i : Instr}
    (clean : s.rx.ferr = false) (short : s.rx.len ≤ 256) (opened : openRole s = some role)
    (decoded : decodeFrame role s.rx.buf = .ok i) : receivedInstr s = some i := by
  have parsed : ¬(s.rx.ferr || decide (s.rx.len > Config.frameMax)) = true := by
    simp [clean, short]
  rw [receivedInstr, if_neg parsed, opened]
  simp only [decoded]
  rfl

theorem frameEnd_of_receivedInstr {s : State} {i : Instr} (h : receivedInstr s = some i) :
    frameEnd exec s = exec i s := by
  simp only [frameEnd, h]

/-- Settles O55: the step is the event's handler; a write to CMD issues the command, and the
`tick_bit` that completes the gap ends the frame. -/
theorem stepRunsDecodedInstruction : Obligations.StepRunsDecodedInstruction := by
  refine ⟨fun a w i s u next cmd decoded => ?word, fun role i s u next notSending opened silent
    clean _ short long hrole decoded => ?frame, nextEvent_snd⟩
  case word =>
    rw [step_of_nextEvent next, handle_busWrite_cmd cmd, issueCommand_of_decodeCommand decoded]
  case frame =>
    rw [step_of_nextEvent next, handle_tickBit_of_ne_tx notSending,
      receiveTick_of_gap (s := { u with bitTicks := u.bitTicks + 1 }) opened silent]
    refine (if_pos long).trans (frameEnd_of_receivedInstr ?_)
    exact receivedInstr_of_decodeFrame (role := role) clean short hrole decoded

end Sys2Proof.Proofs.DecodedStep
end

section
/-! PROOFS. Encoding and decoding are inverse (30_encoding.md R301–R313, 42_frame_decoder.md
R501–R515): the frames of well-formed instructions decode to them, and what decodes is well formed
and encodes back, with the statements of that family. -/

namespace Sys2Proof.Proofs.EncodingRoundTrip

open Sys2Proof Sys2Proof.Machine Sys2Proof.Proofs.IllegalWords Sys2Proof.Proofs.CommandWords
open Sys2Proof.Proofs.FrameDecoder Sys2Proof.Proofs.WireFrames
open Sys2Proof.Proofs.AnswerWindow (parseAnswer_answerFrame)
open Sys2Proof.Proofs.FrameEncoder (ackFrame_length)
open Sys2Proof.Proofs.WriteQueue (isCommand_of_decodeCommand)

/-! ## A frame decodes to its instruction -/

theorem decodeRequest_readRequestFrame (a : Byte) (st c : U16) {tail : List Byte}
    (fits : tail.length ≤ 248) :
    decodeRequest (readRequestFrame a st c tail) = .ok (.readRequest a st c tail) := by
  have rest : (readRequestFrame a st c tail).drop 8 = tail := List.drop_left' (by simp)
  simp only [decodeRequest, parseSlaveRequest_readRequestFrame a st c fits, rest]

theorem decodeRequest_writeRequestFrame (a : Byte) (st : U16) {vals : List U16} (pad : Bool)
    (fits : vals.length ≤ 123) :
    decodeRequest (writeRequestFrame a st vals pad) = .ok (.writeRequest a st vals pad) := by
  have padded : ((writeRequestFrame a st vals pad).length == 10 + 2 * vals.length) = pad := by
    rw [writeRequestFrame_length, Bool.eq_iff_iff, beq_iff_eq]
    cases pad with
    | false => simp
    | true => simp; omega
  simp only [decodeRequest, parseSlaveRequest_writeRequestFrame a st pad fits, padded]

theorem decodeAnswer_answerFrame (a : Byte) {vals : List U16} (nonempty : 1 ≤ vals.length)
    (fits : vals.length ≤ 125) : decodeAnswer (answerFrame a vals) = .ok (.readAnswer a vals) := by
  have addr : byteAt (answerFrame a vals) 0 = a := rfl
  have count : (byteAt (answerFrame a vals) 2).toNat / 2 = vals.length := by
    have bytes : byteAt (answerFrame a vals) 2 = BitVec.ofNat 8 (2 * vals.length) := rfl
    rw [bytes, BitVec.toNat_ofNat]
    omega
  simp only [decodeAnswer, addr, count, parseAnswer_answerFrame a nonempty fits]

theorem decodeAck_ackFrame (a : Byte) (st : U16) (n : Byte) :
    decodeAck (ackFrame a st n) = .ok (.writeAck a st n) := by
  have addr : byteAt (ackFrame a st n) 0 = a := rfl
  have start : be16 (byteAt (ackFrame a st n) 2) (byteAt (ackFrame a st n) 3) = st := be16_hi_lo st
  have count : byteAt (ackFrame a st n) 5 = n := rfl
  have own : ackMatch (ackFrame a st n).length (ackFrame a st n) (ackFrame a st n) = .ok :=
    if_pos ⟨ackFrame_length a st n, rfl⟩
  simp only [decodeAck, addr, start, count, own]

/-- Each frame parser gives back the operands of a well-formed frame (R504, R505, R510, R515). -/
theorem decodeFrame_of_encode {i : Instr} {f : List Byte} {role : FrameRole} (wf : WellFormed i)
    (encoded : encode i = some (.frame f)) (own : frameRole i = some role) :
    decodeFrame role f = .ok i := by
  cases i with
  | readRequest a st c tail =>
    cases encoded; cases own
    exact decodeRequest_readRequestFrame a st c (by simpa [WellFormed, Instr.wf] using wf)
  | writeRequest a st vals pad =>
    cases encoded; cases own
    exact decodeRequest_writeRequestFrame a st pad (by simpa [WellFormed, Instr.wf] using wf)
  | readAnswer a vals =>
    cases encoded; cases own
    obtain ⟨nonempty, fits⟩ : 1 ≤ vals.length ∧ vals.length ≤ 125 := by
      simpa [WellFormed, Instr.wf] using wf
    exact decodeAnswer_answerFrame a nonempty fits
  | writeAck a st n =>
    cases encoded; cases own
    exact decodeAck_ackFrame a st n
  | _ => cases own

theorem exists_frameRole_of_encode {i : Instr} {f : List Byte}
    (encoded : encode i = some (.frame f)) : ∃ own, frameRole i = some own := by
  cases i with
  | readRequest | writeRequest | readAnswer | writeAck => exact ⟨_, rfl⟩
  | _ => cases encoded

/-- Settles O17: a command word is decoded by its row of the opcode map, a frame by the parser of
its own role. -/
theorem decodeOfEncodeIsIdentity : Obligations.DecodeOfEncodeIsIdentity := by
  intro i c role wf encoded inRole
  cases c with
  | word w => exact decodeCommand_of_encode encoded
  | frame f =>
    obtain ⟨own, hown⟩ := exists_frameRole_of_encode encoded
    cases inRole own hown
    exact decodeFrame_of_encode wf encoded hown

/-! ## What decodes encodes back -/

/-- A word whose bits [31:25] are 0 is put together from its fields. -/
theorem commandWord_of_fields {w : Word} {op b : Byte} {l : BitVec 9} (high : highField w = 0#7)
    (hop : opField w = op) (hb : bField w = b) (hl : lField w = l) : commandWord op b l = w := by
  rw [commandWord, ← high, ← hop, ← hb, ← hl, append_fields]

/-- R722: an L of two bits is the zone and the sub-field. -/
theorem modeReqL_of_fields {w : Word} (h : lField w &&& 0x1FC#9 = 0#9) :
    modeReqL (zoneField w) (subField w) = lField w := by
  have twoBits : ∀ l : BitVec 9, l &&& 0x1FC#9 = 0#9 →
      modeReqL (if l.getLsbD 0 then .z1 else .z0) (if l.getLsbD 1 then .hotWater else .zoneMode) =
        l := by decide +kernel
  have bit : ∀ {k}, k < 9 → w.getLsbD (16 + k) = (lField w).getLsbD k :=
    HostAccess.getLsbD_of_extractLsb'_eq rfl
  have zone : zoneField w = if (lField w).getLsbD 0 then .z1 else .z0 := by
    rw [← bit (by decide)]; rfl
  have sub : subField w = if (lField w).getLsbD 1 then .hotWater else .zoneMode := by
    rw [← bit (by decide)]; rfl
  rw [zone, sub, twoBits _ h]

/-- R302: the operands of a row are the fields its mask leaves free. -/
theorem encode_of_row {r : CommandRow} (hr : r ∈ commandRows) {w : Word}
    (hit : w &&& r.mask = r.pattern) : encode (r.operands w) = some (.word w) := by
  obtain ⟨high, op, l, b⟩ := (and_row_mask_eq_pattern_iff hr w).1 hit
  have noL : lField w &&& 0x1FF#9 = 0#9 → lField w = 0#9 := BitVec.and_allOnes.symm.trans
  have noB : bField w &&& 0xFF#8 = 0#8 → bField w = 0#8 := BitVec.and_allOnes.symm.trans
  have word : ∀ {i op b l}, encode i = some (.word (commandWord op b l)) →
      opField w = op → bField w = b → lField w = l → encode i = some (.word w) :=
    fun encoded hop hb hl => encoded.trans (by rw [commandWord_of_fields high hop hb hl])
  simp only [commandRows, List.mem_cons, List.not_mem_nil, or_false] at hr
  rcases hr with rfl | rfl | rfl | rfl | rfl | rfl | rfl | rfl | rfl | rfl | rfl
  · exact word rfl op (noB b) (noL l)
  · exact word rfl op (noB b) (noL l)
  · exact word rfl op rfl (noL l)
  · exact word rfl op (noB b) rfl
  · exact word rfl op (noB b) rfl
  · exact word rfl op (noB b) rfl
  · exact word rfl op (noB b) rfl
  · exact word rfl op (noB b) (noL l)
  · exact word rfl op (noB b) rfl
  · exact word rfl op (noB b) rfl
  · exact word rfl op rfl (modeReqL_of_fields l).symm

theorem encode_of_decodeCommand {w : Word} {i : Instr} (h : decodeCommand w = .ok i) :
    encode i = some (.word w) := by
  unfold decodeCommand at h
  split at h
  · rename_i r hr
    cases h
    have hit : w &&& r.mask = r.pattern := by simpa using List.find?_some hr
    exact encode_of_row (List.mem_of_find?_eq_some hr) hit
  · cases h

/-! ## What decodes is well formed -/

/-- The bounds of a frame (R315) are the bounds of its operands. -/
theorem wellFormed_of_frame_length {i : Instr} {f : List Byte}
    (encoded : encode i = some (.frame f)) (lower : 7 ≤ f.length) (upper : f.length ≤ 256) :
    WellFormed i := by
  cases i with
  | readRequest a st c tail =>
    cases encoded
    have fits : tail.length ≤ 248 := by simp [readRequestFrame] at upper; omega
    simpa [WellFormed, Instr.wf] using fits
  | writeRequest a st vals pad =>
    cases encoded
    have fits : vals.length ≤ 123 := by rw [writeRequestFrame_length] at upper; omega
    simpa [WellFormed, Instr.wf] using fits
  | readAnswer a vals =>
    cases encoded
    have bounds : 1 ≤ vals.length ∧ vals.length ≤ 125 := by
      simp [answerFrame] at lower upper; omega
    simpa [WellFormed, Instr.wf] using bounds
  | writeAck => rfl
  | _ => cases encoded

/-- Every parser checks the bounds of a frame (R501, R510, R515). -/
theorem length_of_decodeFrame {role : FrameRole} {f : List Byte} {i : Instr}
    (h : decodeFrame role f = .ok i) : 7 ≤ f.length ∧ f.length ≤ 256 := by
  cases role with
  | request =>
    change decodeRequest f = _ at h
    by_cases out : f.length < 8 ∨ f.length > 256
    · have rejected : parseSlaveRequest f.length f = .error .feLen := if_pos out
      simp [decodeRequest, rejected] at h
    · omega
  | answer =>
    change decodeAnswer f = _ at h
    unfold decodeAnswer at h
    split at h
    · cases h
    · rename_i vals parsed
      obtain ⟨lower, upper, -⟩ := parseAnswer_ok_length parsed
      exact ⟨lower, upper⟩
  | ack =>
    obtain ⟨a, st, n, rfl⟩ : ∃ a st n, i = .writeAck a st n := by
      have role := WriteQueue.frameRole_of_decodeFrame h
      cases i with
      | writeAck a st n => exact ⟨a, st, n, rfl⟩
      | _ => cases role
    cases encode_of_decodeFrame h
    rw [ackFrame_length]
    decide

theorem wellFormed_of_isCommand {i : Instr} (h : isCommand i = true) : WellFormed i := by
  cases i with
  | readRequest | readAnswer | writeRequest | writeAck | masterReadAnalog | masterWriteAnalog =>
    cases h
  | _ => rfl

/-- Settles O18: a row of the opcode map fixes the bits its operands leave; a parser checks the
bytes its operands leave, and the length of the frame. -/
theorem encodeOfDecodeIsIdentity : Obligations.EncodeOfDecodeIsIdentity := by
  intro role c i decoded
  cases c with
  | word w =>
    exact ⟨wellFormed_of_isCommand (isCommand_of_decodeCommand decoded),
      encode_of_decodeCommand decoded⟩
  | frame f =>
    have encoded : encode i = some (.frame f) := encode_of_decodeFrame decoded
    obtain ⟨lower, upper⟩ := length_of_decodeFrame decoded
    exact ⟨wellFormed_of_frame_length encoded lower upper, encoded⟩

end Sys2Proof.Proofs.EncodingRoundTrip
end

section
/-! PROOFS. Events, interrupts, command errors and reset (60_exceptions.md R802–R823,
70_reset_and_hazards.md R900): an event is always answered, what IRQ_STATUS and `irq` do, the CERR
code of each command, and the state the reset event leaves, with the statements of that family. -/

namespace Sys2Proof.Proofs.EventOutcomes

open Sys2Proof Sys2Proof.Machine Sys2Proof.Proofs.HostAccess Sys2Proof.Proofs.BusAccess
open Sys2Proof.Proofs.IllegalWords Sys2Proof.Proofs.CommandWords Sys2Proof.Proofs.HostCommands
open Sys2Proof.Proofs.DecodedStep (issueCommand_of_decodeCommand)
open Sys2Proof.Proofs.EncodingRoundTrip (encode_of_decodeCommand)
open Sys2Proof.Proofs.WriteQueue (isCommand_of_decodeCommand frameEnd_eq_deliverFrame)

/-! ## Every event is answered (R805) -/

theorem receiveTick_next (s : State) : ∃ t, receiveTick exec s = .next t := by
  unfold receiveTick
  split
  · rw [settleNat_eq]
    dsimp only
    split
    · obtain ⟨n, f, ended⟩ :=
        frameEnd_eq_deliverFrame { s with rx.gap := min (s.rx.gap + 1) Config.rxGapMax }
      exact ⟨_, ended⟩
    · exact ⟨_, rfl⟩
  · exact ⟨_, rfl⟩

theorem handle_next (e : Event) (s : State) : ∃ t, handle exec e s = .next t := by
  cases e with
  | tickBit => exact receiveTick_next _
  | busWrite a v => exact handle_busWrite_next a v s
  | tickMs | rxStart | rxByte | busRead | reset => exact ⟨_, rfl⟩

/-- Settles O56: frames and bus writes are answered, and every other handler is a function. -/
theorem everyEventHasNextState : Obligations.EveryEventHasNextState :=
  ⟨handle_next, fun s => handle_next (nextEvent s).1 (nextEvent s).2⟩

/-! ## Reset -/

/-- Settles O2: reset is written with these fields; the next draw differs from the last. -/
theorem resetEventRestoresEverything : Obligations.ResetEventRestoresEverything := fun s =>
  ⟨resetBlock s, rfl, Nat.succ_ne_self _, Nat.succ_ne_self _, rfl⟩

/-! ## Interrupts -/

/-- W1C: a flag stays set when its bit is written 0 (R823). -/
theorem irqSet_ackIrq (f : IrqFlag) (v : Word) (s : State) :
    irqSet f (ackIrq v s) = (irqSet f s && !v.getLsbD f.bit) := by
  have inside : f.bit < 9 := by cases f <;> decide
  simp [irqSet, inside]

/-- Every bit of IRQ_STATUS is a flag's (R820). -/
theorem exists_flag_bit {k : Nat} (h : k < 9) : ∃ f : IrqFlag, f.bit = k := by
  have flags : ∀ k : Fin 9, ∃ f ∈ ([.cycleDone, .txnFail, .turnAbort, .snoopOk, .snoopErr,
      .stateChg, .modeDone, .wqEmpty, .cmdErr] : List IrqFlag), f.bit = k.val := by decide
  obtain ⟨f, -, bit⟩ := flags ⟨k, h⟩
  exact ⟨f, bit⟩

theorem irqOut_iff (s : State) : irqOut s = true ↔
    ∃ f : IrqFlag, irqSet f s = true ∧ s.irqEnable.getLsbD f.bit = true := by
  have both : ∀ k, (s.irqStatus &&& s.irqEnable).getLsbD k = true ↔
      s.irqStatus.getLsbD k = true ∧ s.irqEnable.getLsbD k = true := by simp
  constructor
  · intro out
    by_contra none
    refine bne_iff_ne.1 out (BitVec.eq_of_getLsbD_eq fun k hk => ?_)
    obtain ⟨f, rfl⟩ := exists_flag_bit hk
    rw [BitVec.getLsbD_zero, ← Bool.not_eq_true, both]
    exact fun set => none ⟨f, set⟩
  · rintro ⟨f, set⟩
    refine bne_iff_ne.2 fun zero => ?_
    have bit := (both f.bit).2 set
    rw [zero, BitVec.getLsbD_zero] at bit
    cases bit

/-- Settles O11: IRQ_STATUS is written by acknowledgement, and each of its bits is a flag's. -/
theorem interruptFlagsAndOutput : Obligations.InterruptFlagsAndOutput :=
  ⟨fun v s => ⟨ackIrq v s, handle_busWrite_of_hostReg (r := .irqStatus) rfl nofun v s,
    fun f => irqSet_ackIrq f v s, rfl⟩, irqOut_iff⟩

/-! ## Command errors (R802, R812) -/

/-- The CERR code of a command with `queued` entries in the write queue. -/
def commandError (queued : Nat) : Instr → Cerr
  | .crcBuf l => if 256 < l.toNat then .badRange else .ok
  | .bldRead l => if ¬(1 ≤ l.toNat ∧ l.toNat ≤ 125) then .badRange else .ok
  | .bldWrite l => if ¬(1 ≤ l.toNat ∧ l.toNat ≤ 123) then .badRange else .ok
  | .bldAck l => if 255 < l.toNat then .badRange else .ok
  | .wqPush l =>
    if ¬(1 ≤ l.toNat ∧ l.toNat ≤ 123) then .badRange else if queued = 8 then .wqFull else .ok
  | _ => .ok

theorem wordError_of_encode {i : Instr} {w : Word} (encoded : encode i = some (.word w))
    (legal : illegalWord w = false) (queued : Nat) :
    wordError w queued = commandError queued i := by
  have fields : ∀ op b l, (commandWord op b l).extractLsb' 0 8 = op ∧
      (commandWord op b l).extractLsb' 16 9 = l := fun op b l => by
    obtain ⟨-, lPart, -, opPart⟩ := commandWord_fields op b l
    exact ⟨opPart, lPart⟩
  have ofWord : ∀ op b l, w = commandWord op b l → wordError w queued =
      if op = 0x03#8 ∧ 256 < l.toNat then .badRange
      else if op = 0x10#8 ∧ ¬(1 ≤ l.toNat ∧ l.toNat ≤ 125) then .badRange
      else if op = 0x11#8 ∧ ¬(1 ≤ l.toNat ∧ l.toNat ≤ 123) then .badRange
      else if op = 0x12#8 ∧ 255 < l.toNat then .badRange
      else if op = 0x30#8 ∧ ¬(1 ≤ l.toNat ∧ l.toNat ≤ 123) then .badRange
      else if op = 0x30#8 ∧ queued = 8 then .wqFull
      else .ok := by
    rintro op b l rfl
    obtain ⟨opPart, lPart⟩ := fields op b l
    simp only [wordError, legal, Bool.false_eq_true, if_false, opPart, lPart]
  cases i with
  | readRequest | readAnswer | writeRequest | writeAck | masterReadAnalog | masterWriteAnalog =>
    cases encoded
  | _ =>
    cases encoded
    rw [ofWord _ _ _ rfl]
    simp [commandError]

/-- A command with a range check ends with its code, and with BAD_RANGE nothing of its body runs. -/
theorem next_checked {p q : Prop} [Decidable p] [Decidable q] (same : p ↔ q) (s body : State) :
    ∃ u, (.next (if p then finish .badRange (beginCommand s) else finish .ok body) : Result) =
        .next (finish (if q then .badRange else .ok) u) ∧
      ((if q then Cerr.badRange else .ok) ≠ .ok → u = beginCommand s) := by
  by_cases out : q
  · exact ⟨beginCommand s, by rw [if_pos (same.2 out), if_pos out], fun _ => rfl⟩
  · exact ⟨body, by rw [if_neg (mt same.1 out), if_neg out],
      fun failed => absurd (if_neg out) failed⟩

/-- R802: a command ends with its code, and with an error nothing of its body runs. -/
theorem exec_command_error {i : Instr} (h : isCommand i = true) (s : State) :
    ∃ u, exec i s = .next (finish (commandError s.wq.length i) u) ∧
      (commandError s.wq.length i ≠ .ok → u = beginCommand s) := by
  have range : ∀ l n : Nat, (l < 1 ∨ l > n) ↔ ¬(1 ≤ l ∧ l ≤ n) := fun l n => by omega
  cases i with
  | nop | crcInit | crcByte | prsReq | prsAns | modeReq => exact ⟨_, rfl, absurd rfl⟩
  | crcBuf l => exact next_checked Iff.rfl s _
  | bldRead l => exact next_checked (range l.toNat 125) s _
  | bldWrite l => exact next_checked (range l.toNat 123) s _
  | bldAck l => exact next_checked Iff.rfl s _
  | wqPush l =>
    rw [exec, execWqPush, commandError]
    by_cases out : l.toNat < 1 ∨ l.toNat > 123
    · rw [if_pos out, if_pos ((range _ _).1 out)]
      exact ⟨_, rfl, fun _ => rfl⟩
    · rw [if_neg out, if_neg (mt (range _ _).2 out)]
      by_cases full : s.wq.length = 8
      · rw [if_pos full, if_pos full]
        exact ⟨_, rfl, fun _ => rfl⟩
      · rw [if_neg full, if_neg full]
        exact ⟨_, rfl, absurd rfl⟩
  | _ => cases h

/-- R802: the write of a word to CMD ends with the word's code; with an error only CMD, CMD_STATUS
and CMD_ERR have changed. -/
theorem issueCommand_error (w : Word) (s : State) : ∃ t, issueCommand exec w s = .next t ∧
    t.host.cerr = wordError w s.wq.length ∧
    (t.host.cerr ≠ .ok → t = { s with
      host := { s.host with cmd := w, cerr := t.host.cerr, ferr := .ok }
      irqStatus := s.irqStatus ||| 0x100#9 }) := by
  cases decoded : decodeCommand w with
  | error e =>
    have illegal := (decodeCommand_error_iff_illegalWord w).1 ⟨e, decoded⟩
    exact ⟨_, issueCommand_of_decodeCommand_error decoded s, by simp [wordError, illegal],
      fun _ => rfl⟩
  | ok i =>
    have legal : illegalWord w = false := by
      by_contra illegal
      obtain ⟨e, rejected⟩ :=
        (decodeCommand_error_iff_illegalWord w).2 (Bool.of_not_eq_false illegal)
      cases decoded.symm.trans rejected
    obtain ⟨u, ran, body⟩ :=
      exec_command_error (isCommand_of_decodeCommand decoded) { s with host.cmd := w }
    rw [← wordError_of_encode (encode_of_decodeCommand decoded) legal] at ran body
    refine ⟨finish (wordError w s.wq.length) u, (issueCommand_of_decodeCommand decoded s).trans ran,
      congrArg HostPort.cerr (finish_host _ u), fun failed => ?_⟩
    rw [finish_host] at failed ⊢
    rw [body failed, finish_beginCommand_of_ne_ok failed]

/-- Settles O29: a legal word is the encoding of the command that runs, an illegal one is rejected;
in both cases `finish` records the code. -/
theorem commandErrorsByCause : Obligations.CommandErrorsByCause := by
  intro w s
  have cmd : hostReg 0x01C#14 = some .cmd := rfl
  have status : hostReg 0x020#14 = some .cmdStatus := rfl
  obtain ⟨t, issued, code, frame⟩ := issueCommand_error w s
  obtain ⟨t', issued', word⟩ := issueCommand_cmd w s
  cases issued.symm.trans issued'
  refine ⟨t, (handle_busWrite_cmd cmd w s).trans issued, code, word, ?_, frame⟩
  obtain ⟨cerr, -⟩ := cmdStatusWord_fields t
  rw [busReadData_of_hostReg status, readReg, cerr]
  cases t.host.cerr <;> rfl

end Sys2Proof.Proofs.EventOutcomes
end

section
/-! PROOFS. The invariant of the machine (10_state.md section 3): it holds after reset, and the
parts of it that a handler can leave to the next operation. A handler passes through states that do
not meet the invariant: `Base` and `Ready` say what holds there, and the lemmas give the invariant
back where the sequencer comes to rest. -/

namespace Sys2Proof.Proofs.Invariant

open Sys2Proof Sys2Proof.Machine
open Sys2Proof.Proofs.ArbiterView (irqSet_raiseIrq)

/-! ## The state after reset -/

/-- Settles O59: the memories and the queue are empty, the timers 0, and nothing is in progress. -/
theorem invariantHoldsAtReset : Obligations.InvariantHoldsAtReset where
  memory := ⟨by decide, by decide, by decide, by decide⟩
  range := ⟨by decide, by decide, by decide, by decide, nofun, by decide, by decide, by decide,
    by decide, by decide, by decide⟩
  receiver := ⟨by decide, by decide, by decide, by decide, by decide, by decide⟩
  transaction := ⟨by decide, by decide, by decide, by decide, nofun, nofun, nofun, by decide⟩
  arbiter := ⟨by decide, by decide, by decide, by decide, by decide, by decide⟩

/-! ## What the invariant depends on -/

/-- What the invariants of the receiver, the transaction and the arbiter speak of, the rest at its
reset value. -/
def spoken (s : State) : State :=
  { State.reset with
    en := s.en, irqStatus := s.irqStatus, arb := s.arb, rx := s.rx, tx := s.tx, wq := s.wq
    run := s.run, cyc := { ReadCycle.reset with active := s.cyc.active }
    seq := s.seq, unit := s.unit, step := s.step, txn := s.txn, ackExp := s.ackExp
    stopPending := s.stopPending, txnDiscard := s.txnDiscard }

section Parts

variable {s t : State}

theorem inv_of_spoken (inv : Inv s) (memory : MemoryInv t) (range : RangeInv t)
    (same : spoken t = spoken s) : Inv t := by
  have receiver : ReceiverInv (spoken s) := { inv.receiver with }
  have transaction : TransactionInv (spoken s) := { inv.transaction with }
  have arbiter : ArbiterInv (spoken s) := { inv.arbiter with }
  rw [← same] at receiver transaction arbiter
  exact ⟨memory, range, { receiver with }, { transaction with }, { arbiter with }⟩

/-- The receiver's own invariant, apart from who owns the open frame (R132, R554, R557). -/
structure FrameInv (r : Receiver) : Prop where
  len : r.len ≤ Config.rxLenMax
  gap : r.gap ≤ Config.rxGapMax
  stored : r.buf.length = min r.len Config.frameMax
  nonempty : r.inFrame = true → 1 ≤ r.len
  closed : r.inFrame = false → r.len = 0 ∧ r.gap = 0 ∧ r.ferr = false ∧ r.owner = .snoop

theorem frameInv_of_inv (inv : Inv s) : FrameInv s.rx := { inv.receiver with }

theorem frameInv_idle (r : Receiver) : FrameInv r.idle :=
  ⟨Nat.zero_le _, Nat.zero_le _, rfl, nofun, fun _ => ⟨rfl, rfl, rfl, rfl⟩⟩

/-- Another receiver in the same state of the sequencer: its open frame is an answer exactly in
WAIT, and it is at rest in TX (R555, R559). -/
theorem inv_set_rx (inv : Inv s) {r : Receiver} (frame : FrameInv r)
    (answer : r.inFrame = true → (r.owner = .answer ↔ s.seq = .wait))
    (sending : s.seq = .tx → r.active = false ∧ r.inFrame = false) : Inv { s with rx := r } where
  memory := { inv.memory with }
  range := { inv.range with }
  receiver := { frame with answer := answer }
  transaction := { inv.transaction with
    sending := fun h => by
      obtain ⟨lower, upper, -⟩ := inv.transaction.sending h
      exact ⟨lower, upper, sending h⟩ }
  arbiter := { inv.arbiter with }

/-- Other interrupt flags, with CYCLE_DONE set only where it was. -/
theorem inv_set_irqStatus (inv : Inv s) {v : BitVec 9}
    (kept : v.getLsbD 0 = true → irqSet .cycleDone s = true) : Inv { s with irqStatus := v } where
  memory := { inv.memory with }
  range := { inv.range with }
  receiver := { inv.receiver with }
  transaction := { inv.transaction with
    position := fun x hx => by
      have place := inv.transaction.position x hx
      have clear :
          irqSet .cycleDone s = false → irqSet .cycleDone { s with irqStatus := v } = false :=
        fun off => by
          by_contra on
          exact absurd (off.symm.trans (kept (Bool.of_not_eq_false on))) (by decide)
      obtain ⟨a, st, op⟩ := x
      match op with
      | .read _ .modeRead | .write _ .modeWrite | .write _ .drainWrite => exact place
      | .read _ (.partRead _ _) =>
        obtain ⟨unit, step, lower, upper, fits, active, done⟩ := place
        exact ⟨unit, step, lower, upper, fits, active, clear done⟩ }
  arbiter := { inv.arbiter with cycle := fun done => inv.arbiter.cycle (kept done) }

theorem inv_raiseIrq (inv : Inv s) {f : IrqFlag} (h : f ≠ .cycleDone) : Inv (raiseIrq f s) :=
  inv_set_irqStatus inv fun set => by
    have raised : irqSet .cycleDone (raiseIrq f s) = true := set
    simpa [h] using raised

/-! ## No transmission and no answer -/

/-- What every handler keeps while nothing is sent and no answer is open. -/
structure Base (s : State) : Prop where
  memory : MemoryInv s
  range : RangeInv s
  frame : FrameInv s.rx
  owner : s.rx.inFrame = true → s.rx.owner ≠ .answer
  de : s.tx.de = false
  bits : s.tx.bits = 0
  cycle : irqSet .cycleDone s = true → s.cyc.active = false

/-- What `Base` speaks of, besides the memories and the ranges. -/
def baseView (s : State) : Receiver × Bool × Nat × BitVec 9 × Bool :=
  (s.rx, s.tx.de, s.tx.bits, s.irqStatus, s.cyc.active)

theorem Base.of_view (b : Base s) (memory : MemoryInv t) (range : RangeInv t)
    (same : baseView t = baseView s) : Base t := by
  simp only [baseView, Prod.mk.injEq] at same
  obtain ⟨rx, de, bits, irq, active⟩ := same
  exact ⟨memory, range, rx ▸ b.frame, rx ▸ b.owner, de ▸ b.de, bits ▸ b.bits,
    by rw [irqSet, irq, active]; exact b.cycle⟩

theorem Base.raiseIrq (b : Base s) {f : IrqFlag} (h : f ≠ .cycleDone) : Base (raiseIrq f s) :=
  { b with
    memory := { b.memory with }
    range := { b.range with }
    cycle := fun set => b.cycle (by simpa [h] using set) }

theorem Base.setArb (b : Base s) (a : Arb) : Base (setArb a s) := by
  unfold Machine.setArb
  split
  · exact b
  · exact (b.of_view (t := { s with arb := a }) { b.memory with } { b.range with } rfl).raiseIrq
      (by decide)

/-- With the sequencer neither sending nor waiting for an answer, the invariant has its base. -/
theorem base_of_inv (inv : Inv s) (notTx : s.seq ≠ .tx) (notWait : s.seq ≠ .wait) : Base s where
  memory := inv.memory
  range := inv.range
  frame := frameInv_of_inv inv
  owner := fun opened own => notWait ((inv.receiver.answer opened).1 own)
  de := by rw [← Bool.not_eq_true, inv.transaction.de]; exact notTx
  bits := inv.transaction.idle notTx
  cycle := inv.arbiter.cycle

/-- A state with no transaction holds no partition read to discard and no stop that waits. -/
theorem nothing_in_flight (inv : Inv s) (h : s.seq = .off ∨ s.seq = .listen ∨ s.seq = .pause) :
    s.txn = none ∧ s.txnDiscard = false ∧ s.stopPending = none := by
  have noTxn : s.txn = none := by
    rw [← Option.not_isSome_iff_eq_none, inv.transaction.present]
    rcases h with h | h | h <;> simp [h]
  refine ⟨noTxn, ?_, ?_⟩
  · rw [← Bool.not_eq_true]
    intro discard
    have inFlight := inv.transaction.discard discard
    simp [partReadInFlight, noTxn] at inFlight
  · rw [← Option.not_isSome_iff_eq_none]
    intro waits
    have inTxn := inv.arbiter.stop waits
    rcases h with h | h | h <;> simp [Machine.inTxn, h] at inTxn

/-- The sequencer in OFF, outside MASTER, with nothing in progress. -/
theorem Base.inv_off (b : Base s) (seq : s.seq = .off) (rest : s.unit = .mode0 ∧ s.step = 0)
    (txn : s.txn = none) (discard : s.txnDiscard = false) (arb : s.arb ≠ .master)
    (stop : s.stopPending = none) (enable : s.en = false → s.arb = .init) : Inv s where
  memory := b.memory
  range := b.range
  receiver := { b.frame with answer := fun opened => by simp [b.owner opened, seq] }
  transaction := by constructor <;> simp [b.de, b.bits, seq, txn, discard]
  arbiter := by
    refine ⟨?_, fun _ => rest, ?_, ?_, fun off => .inl (enable off), b.cycle⟩ <;>
      simp [seq, arb, stop]

/-! ## A turn that goes on -/

/-- What decides whether a turn can go on. -/
def turnControl (s : State) : Bool × Arb × Option StopReason × Bool × Option Txn :=
  (s.en, s.arb, s.stopPending, s.txnDiscard, s.txn)

/-- The state in which the next operation of a turn begins: MASTER, no stop that waits, no
transaction. -/
structure Ready (s : State) : Prop extends Base s where
  control : turnControl s = (true, .master, none, false, none)

theorem Ready.of_view (r : Ready s) (memory : MemoryInv t) (range : RangeInv t)
    (same : baseView t = baseView s) (kept : turnControl t = turnControl s) : Ready t :=
  ⟨r.toBase.of_view memory range same, kept.trans r.control⟩

/-- The windows of a turn in which no transaction exists: LISTEN and PAUSE (R652, R668). -/
theorem Ready.inv_window (r : Ready s) (window : s.seq = .listen ∨ s.seq = .pause)
    (rest : s.seq = .listen → s.unit = .mode0 ∧ s.step = 0)
    (pause : s.seq = .pause →
      (s.unit = .mode0 ∨ s.unit = .mode1) ∧ program s.run s.step = some .pause) : Inv s := by
  have control := r.control
  simp only [turnControl, Prod.mk.injEq] at control
  obtain ⟨en, arb, stop, discard, txn⟩ := control
  have notOff : s.seq ≠ .off := by rcases window with h | h <;> simp [h]
  have notTx : s.seq ≠ .tx := by rcases window with h | h <;> simp [h]
  have notWait : s.seq ≠ .wait := by rcases window with h | h <;> simp [h]
  have notGuard : s.seq ≠ .guard := by rcases window with h | h <;> simp [h]
  refine ⟨r.memory, r.range, { r.frame with answer := fun opened => ?_ }, ?_, ?_⟩
  · simp [r.owner opened, notWait]
  · constructor <;> simp [r.de, r.bits, txn, discard, notTx, notWait, notGuard]
  · refine ⟨?_, fun h => rest (h.resolve_left notOff), pause, ?_, ?_, r.cycle⟩ <;>
      simp [arb, notOff, stop, en]

/-- A transaction in its guard (R601). -/
def guarded (x : Txn) (ack : List Byte) (s : State) : State :=
  { s with tx.buf := requestOf x, ackExp := ack, txn := some x, seq := .guard }

theorem Ready.inv_guarded (r : Ready s) {x : Txn} {ack : List Byte}
    (expected : ∀ vals p, x.op = .write vals p →
      ack = ackFrame x.addr x.start (BitVec.ofNat 8 vals.length))
    (place : positionInv s x.op x.start) : Inv (guarded x ack s) := by
  have control := r.control
  simp only [turnControl, Prod.mk.injEq] at control
  obtain ⟨en, arb, stop, discard, txn⟩ := control
  refine ⟨{ r.memory with }, { r.range with }, { r.frame with answer := fun opened => ?_ }, ?_, ?_⟩
  · exact iff_of_false (r.owner opened) nofun
  · refine ⟨?_, ?_, nofun, fun _ => r.bits, ?_, ?_, ?_, fun h => ?_⟩
    · simp [guarded, r.de]
    · simp [guarded]
    · rintro _ ⟨⟩; rfl
    · rintro _ vals p ⟨⟩ op; exact expected vals p op
    · rintro _ ⟨⟩; exact place
    · exact absurd (discard.symm.trans h) (by decide)
  · refine ⟨?_, nofun, nofun, fun waits => ?_, fun off => ?_, r.cycle⟩
    · simp [guarded, arb]
    · simp [guarded, stop] at waits
    · exact absurd (en.symm.trans off) (by decide)

theorem Ready.inv_beginRead (r : Ready s) {st c : U16} {p : ReadPurpose}
    (place : positionInv s (.read c p) st) : Inv (beginRead st c p s) :=
  r.inv_guarded (x := { addr := s.cfg.slaveAddr, start := st, op := .read c p }) (ack := s.ackExp)
    nofun place

theorem Ready.inv_beginWrite (r : Ready s) {st : U16} {vals : List U16} {p : WritePurpose}
    (place : positionInv s (.write vals p) st) : Inv (beginWrite st vals p s) :=
  r.inv_guarded (x := { addr := s.cfg.slaveAddr, start := st, op := .write vals p })
    (fun _ _ op => by cases op; rfl) place

end Parts

end Sys2Proof.Proofs.Invariant
end

section
/-! PROOFS. The turn keeps the invariant (45_turn_sequencer.md R650–R683): from a state in which a
turn can go on, every unit, every step of a mode program and every continuation ends in a window or
a guard that meets it. -/

namespace Sys2Proof.Proofs.TurnInvariant

open Sys2Proof Sys2Proof.Machine Sys2Proof.Proofs.Invariant
open Sys2Proof.Proofs.ReadStep (cycleDue_iff)
open Sys2Proof.Proofs.TurnWork (cycleStart_frame)

variable {s : State}

/-! ## The read unit -/

theorem inv_endTurn (r : Ready s) : Inv (endTurn s) := by
  have ended : Ready (endTurn s) :=
    r.of_view { r.memory with } { r.range with listen := Nat.zero_le _ } rfl rfl
  exact ended.inv_window (.inl rfl) (fun _ => ⟨rfl, rfl⟩) nofun

/-- A cycle starts only with CYCLE_DONE = 0 (R680, R912). -/
theorem ready_cycleStart (r : Ready s) : Ready (cycleStart s) := by
  rcases cycleStart_cases s with ⟨due, h⟩ | ⟨-, h⟩ <;> rw [h]
  · obtain ⟨-, notDone, -, -⟩ := (cycleDue_iff s).1 due
    exact
      { r with
        memory := { r.memory with }
        range := { r.range with }
        cycle := fun done => absurd (notDone.symm.trans done) (by decide) }
  · exact r

/-- A cycle that is dropped or completed is active no longer (R681, R682). -/
theorem ready_readIdle (r : Ready s) : Ready (readIdle s) := by
  unfold readIdle
  split
  · exact r
  · split
    · exact { r with memory := { r.memory with }, range := { r.range with }, cycle := fun _ => rfl }
    · exact
        { r with
          memory := { r.memory with }
          range := { r.range with since := Nat.zero_le _ }
          cycle := fun _ => rfl }

/-- The partition a read step reads is effective (R135, R681). -/
theorem effective_of_lowest {p : Fin 8} (lowest : lowestBit (pendingParts s) = some p) :
    (s.cfg.pt[p]).effective = true := by
  have pending := lowestBit_getLsbD lowest
  rw [pendingParts, BitVec.getLsbD_and, Bool.and_eq_true, effEn_getLsbD] at pending
  exact pending.1

theorem inv_readStep (r : Ready s) (unit : s.unit = .read) (step : s.step = 0) :
    Inv (readStep s) := by
  have started := ready_cycleStart r
  rcases readStep_cases s with h | ⟨p, active, lowest, h⟩ <;> rw [h]
  · exact inv_endTurn (ready_readIdle started)
  · obtain ⟨-, lower, upper, fits⟩ :=
      (Partition.effective_iff _).1 (effective_of_lowest lowest)
    have count : (((cycleStart s).cfg.pt[p]).count.setWidth 16).toNat =
        ((cycleStart s).cfg.pt[p]).count.toNat := by simp; omega
    have notDone : irqSet .cycleDone (cycleStart s) = false := by
      rw [← Bool.not_eq_true]
      exact fun done => absurd (active.symm.trans (started.cycle done)) (by decide)
    obtain ⟨cyc, frame⟩ := cycleStart_frame s
    refine started.inv_beginRead ⟨?_, ?_, count ▸ lower, count ▸ upper, count ▸ fits, .inl active,
      notDone⟩ <;> rw [frame]
    · exact unit
    · exact step

theorem inv_readUnit (r : Ready s) : Inv (readUnit s) :=
  inv_readStep (r.of_view { r.memory with } { r.range with } rfl rfl) rfl rfl

/-! ## The drain -/

theorem inv_drainNext (r : Ready s) (unit : s.unit = .drain) (step : s.step = 0) :
    Inv (drainNext s) := by
  rcases drainNext_cases s with ⟨e, rest, queue, -, h⟩ | ⟨-, h⟩ <;> rw [h]
  · exact r.inv_beginWrite ⟨unit, step, by rw [queue]; rfl⟩
  · exact inv_readUnit r

theorem inv_drainUnit (r : Ready s) : Inv (drainUnit s) :=
  inv_drainNext
    (r.of_view { r.memory with } { r.range with drain := Nat.zero_le _ } rfl rfl) rfl rfl

/-! ## The mode units -/

/-- The state in which a mode sequence reads its register: the zone's sub-slots and registers are
latched, at step 0 of the zone's unit (R665). -/
def modeLatched (z : Zone) (s : State) : State :=
  { setSlots z { zone := (slotsOf z s).zone.latch, hot := (slotsOf z s).hot.latch } s with
    unit := unitOf z
    step := 0
    run :=
      { s.run with
        latZ := (slotsOf z s).zone.pend, zcode := (slotsOf z s).zone.code
        latH := (slotsOf z s).hot.pend, hcode := (slotsOf z s).hot.code
        modeReg := modeRegOf z s, dcReg := dcRegOf z s } }

theorem ready_modeLatched (z : Zone) (r : Ready s) : Ready (modeLatched z s) := by
  cases z <;> exact r.of_view { r.memory with } { r.range with } rfl rfl

theorem inv_modeStart (z : Zone) (r : Ready s) : Inv (modeStart z s) := by
  have modeUnit : unitOf z = .mode0 ∨ unitOf z = .mode1 := by cases z <;> decide
  exact (ready_modeLatched z r).inv_beginRead (p := .modeRead) ⟨modeUnit, rfl, rfl, rfl⟩

theorem inv_advance (u : TurnUnit) (r : Ready s) : Inv (advance u s) := by
  rcases advance_cases u s with ⟨z, -, h⟩ | h | h <;> rw [h]
  · exact inv_modeStart z r
  · exact inv_drainUnit r
  · exact inv_readUnit r

theorem inv_runStep (r : Ready s) (unit : s.unit = .mode0 ∨ s.unit = .mode1)
    (step : (program s.run s.step).isSome = true) : Inv (runStep s) := by
  rcases runStep_cases s step with ⟨reg, v, write, h⟩ | ⟨pause, h⟩ <;> rw [h]
  · exact r.inv_beginWrite ⟨unit, v, rfl, write⟩
  · have paused : Ready { s with seq := .pause, pauseMs := 0 } :=
      r.of_view { r.memory with } { r.range with pause := Nat.zero_le _ } rfl rfl
    exact paused.inv_window (.inr rfl) nofun fun _ => ⟨unit, pause⟩

/-! ## The continuation of a transaction -/

/-- Where the sequencer stands when a transaction's result has been applied. -/
def TurnPlace (s : State) : TxnOp → Except Ferr (List U16) → Prop
  | .read _ .modeRead, .ok _ => (s.unit = .mode0 ∨ s.unit = .mode1) ∧ s.step = 1
  | .write _ .modeWrite, .ok _ =>
    (s.unit = .mode0 ∨ s.unit = .mode1) ∧ (program s.run s.step).isSome = true
  | .write _ .drainWrite, .ok _ => s.unit = .drain ∧ s.step = 0
  | _, _ => True

theorem inv_continueTurn (op : TxnOp) (res : Except Ferr (List U16)) (r : Ready s)
    (place : TurnPlace s op res) : Inv (continueTurn op res s) := by
  match op, res with
  | .read _ .modeRead, .ok _ =>
    obtain ⟨unit, step⟩ := place
    refine inv_runStep r unit ((program_isSome _ _).2 ?_)
    rw [step, lastStep]
    split <;> decide
  | .read _ .modeRead, .error _ => exact inv_advance _ r
  | .read _ (.partRead _ _), .ok _ | .read _ (.partRead _ _), .error _ => exact inv_endTurn r
  | .write _ .modeWrite, .ok _ =>
    obtain ⟨unit, step⟩ := place
    unfold continueTurn
    dsimp only
    split
    · exact inv_advance _ r
    · rename_i more
      exact inv_runStep (r.of_view { r.memory with } { r.range with } rfl rfl) unit
        (program_next _ _ step more)
  | .write _ .modeWrite, .error _ => exact inv_advance _ r
  | .write _ .drainWrite, .ok _ =>
    obtain ⟨unit, step⟩ := place
    exact inv_drainNext r unit step
  | .write _ .drainWrite, .error _ => exact inv_readUnit r

end Sys2Proof.Proofs.TurnInvariant
end

section
/-! PROOFS. The end of a transaction and the stops keep the invariant (43_line_and_arbiter.md
R575–R577, 44_transactions.md R605–R607, 45_turn_sequencer.md R662): an abort and a stop lead to
OFF, and a result that is applied leaves a state in which the turn can go on. -/

namespace Sys2Proof.Proofs.ResultInvariant

open Sys2Proof Sys2Proof.Machine Sys2Proof.Proofs.Invariant Sys2Proof.Proofs.TurnInvariant
open Sys2Proof.Proofs.TransactionResult
open Sys2Proof.Proofs.ArbiterView (seq_abortTurn)
open Sys2Proof.Proofs.ArbiterEvents (stopRequest_of_txn stopRequest_of_no_txn)

variable {s : State}

/-! ## Stops -/

/-- An abort drops the transaction and leaves MASTER (R662). -/
theorem inv_abortTurn (b : Base s) (reason : AbortReason) (stop : s.stopPending = none)
    (enable : s.en = false → reason.target = .init) : Inv (abortTurn reason s) := by
  have notMaster : reason.target ≠ .master := by cases reason <;> decide
  have left : Base (abortTurn reason s) := by
    refine Base.setArb (Base.raiseIrq (f := .turnAbort) ?_ (by decide)) _
    exact b.of_view { b.memory with } { b.range with } rfl
  refine left.inv_off (seq_abortTurn _ _) ?_ ?_ ?_ ?_ ?_ ?_ <;> rw [abortTurn_eq] <;> simp
  · exact notMaster
  · exact stop
  · exact enable

/-- REINIT discards an open frame, which in OFF is no answer (R577). -/
theorem inv_restartReceiver (inv : Inv s) (off : s.seq = .off) : Inv (restartReceiver s) := by
  have quiet : Inv { s with quietMs := 0 } :=
    inv_of_spoken inv { inv.memory with } { inv.range with quiet := Nat.zero_le _ } rfl
  have frame := frameInv_of_inv inv
  refine inv_set_rx quiet
    (r := { s.rx with owner := if s.rx.inFrame then .discard else s.rx.owner })
    { frame with closed := fun closed => ?_ } (fun opened => ?_) (fun sending => ?_)
  · have closed : s.rx.inFrame = false := closed
    simpa [closed] using frame.closed closed
  · have opened : s.rx.inFrame = true := opened
    simp [opened, off]
  · exact absurd (off.symm.trans sending) (by decide)

theorem inv_doStop (b : Base s)
    (rest : inTurn s = false → s.txn = none ∧ s.txnDiscard = false) (why : StopReason) :
    Inv (doStop why s) := by
  have cleared : Base { s with stopPending := none } :=
    b.of_view { b.memory with } { b.range with } rfl
  have stopped : ∀ u, u = (if inTurn { s with stopPending := none } then
        abortTurn why.abort { s with stopPending := none }
      else setArb .init (leaveTurn .off { s with stopPending := none })) →
      Inv u ∧ u.seq = .off := by
    rintro _ rfl
    split
    · exact ⟨inv_abortTurn cleared _ rfl fun _ => by cases why <;> rfl, seq_abortTurn _ _⟩
    · rename_i notTurn
      obtain ⟨txn, discard⟩ := rest (Bool.of_not_eq_true notTurn)
      have left : Base (leaveTurn .off { s with stopPending := none }) :=
        b.of_view { b.memory with } { b.range with } rfl
      exact ⟨(left.setArb .init).inv_off (by simp) (by simp) (by simpa using txn)
        (by simpa using discard) (by simp) (by simp) (by simp), by simp⟩
  obtain ⟨inv, off⟩ := stopped _ rfl
  cases why with
  | stop => exact inv
  | reinit => exact inv_restartReceiver inv off

theorem inv_waiting_stop (inv : Inv s) (busy : inTxn s = true) (en : Bool) (why : StopReason) :
    Inv { s with en := en, stopPending := some why } where
  memory := { inv.memory with }
  range := { inv.range with }
  receiver := { inv.receiver with }
  transaction := { inv.transaction with }
  arbiter := { inv.arbiter with stop := fun _ => busy, enable := fun _ => .inr rfl }

/-- A stop request waits for a transaction in flight, or is performed; EN may be written with it
(R575). -/
theorem inv_stopRequest (inv : Inv s) (en : Bool) (why : StopReason) :
    Inv (stopRequest why { s with en := en }) := by
  cases busy : inTxn s with
  | true =>
    rw [stopRequest_of_txn (s := { s with en := en }) busy]
    obtain ⟨waits, h⟩ : ∃ waits, (if s.stopPending = some .reinit then some .reinit else some why) =
        some waits := by split <;> exact ⟨_, rfl⟩
    rw [h]
    exact inv_waiting_stop inv busy en waits
  | false =>
    rw [stopRequest_of_no_txn (s := { s with en := en }) busy]
    have notTx : s.seq ≠ .tx := fun h => by simp [inTxn, h] at busy
    have notWait : s.seq ≠ .wait := fun h => by simp [inTxn, h] at busy
    have b : Base { s with en := en } :=
      (base_of_inv inv notTx notWait).of_view { inv.memory with } { inv.range with } rfl
    refine inv_doStop b (fun notTurn => ?_) why
    have atRest : s.seq = .off ∨ s.seq = .listen ∨ s.seq = .pause := by
      have notTurn : inTurn s = false := notTurn
      cases h : s.seq <;> simp [inTurn, h] at notTurn ⊢
    obtain ⟨txn, discard, -⟩ := nothing_in_flight inv atRest
    exact ⟨txn, discard⟩

/-! ## The result recorded and applied -/

theorem base_recorded (b : Base s) (c : Ferr) : Base (recorded c s) := by
  rw [← recordResult_eq]
  unfold recordResult
  dsimp only
  split
  · exact b.of_view { b.memory with } { b.range with } rfl
  · refine Base.raiseIrq (f := .txnFail) ?_ (by decide)
    exact b.of_view { b.memory with } { b.range with } rfl

theorem base_noteAttempt (b : Base s) (op : TxnOp) : Base (noteAttempt op s) := by
  cases op with
  | read => exact b
  | write => exact b.of_view { b.memory with } { b.range with } rfl

/-- The values of a partition read fit the value memory; a cycle completed is active no longer
(R683). -/
theorem base_partDone (b : Base s) (p : Fin 8) {base : BitVec 9} {vals : List U16}
    (fits : base.toNat + vals.length ≤ 512) : Base (partDone p base vals s) := by
  obtain ⟨canonical, below⟩ := b.memory.vr
  have stored : MemoryInv (storeVr base.toNat vals s) :=
    { b.memory with
      vr := ⟨memWriteAll_wf _ _ _ canonical, memWriteAll_below _ _ _ below fits⟩ }
  unfold partDone
  split
  · exact b
  · dsimp only
    split
    · exact { b with
        memory := { stored with }
        range := { b.range with since := Nat.zero_le _ }
        cycle := fun _ => rfl }
    · exact { b with memory := { stored with }, range := { b.range with } }

theorem base_modeComplete (b : Base s) : Base (modeComplete s) := by
  have cleared : ∀ z, Base (clearLatched z s) := fun z => by
    cases z <;> exact b.of_view { b.memory with } { b.range with } rfl
  unfold modeComplete
  split
  · exact (cleared _).raiseIrq (by decide)
  · exact (cleared _).raiseIrq (by decide)
  · exact b
  · exact b

theorem base_drainDone (b : Base s) : Base (drainDone s) := by
  have shorter : RangeInv { s with wq := s.wq.tail } :=
    { b.range with
      wqLength := by
        have := b.range.wqLength
        rw [List.length_tail]
        omega
      wqVals := fun e he => b.range.wqVals e (List.mem_of_mem_tail he) }
  have drained : Base { s with wq := s.wq.tail } := b.of_view { b.memory with } shorter rfl
  unfold drainDone
  dsimp only
  split
  · exact drained.raiseIrq (by decide)
  · exact drained

theorem base_applyResult {op : TxnOp} {r : Except Ferr (List U16)} (b : Base s)
    (fits : ∀ c p base vals, op = .read c (.partRead p base) → r = .ok vals →
      base.toNat + vals.length ≤ 512) : Base (applyResult op r s) := by
  match op, r with
  | .read _ .modeRead, .ok _ => exact b.of_view { b.memory with } { b.range with } rfl
  | .read _ .modeRead, .error _ | .write _ .modeWrite, .error _ | .write _ .drainWrite, .error _ =>
    exact b
  | .read c (.partRead p base), .ok vals =>
    have done := base_partDone b p (fits c p base vals rfl rfl)
    exact done.of_view { done.memory with } { done.range with } rfl
  | .read _ (.partRead _ _), .error _ => exact b.of_view { b.memory with } { b.range with } rfl
  | .write _ .modeWrite, .ok _ =>
    unfold applyResult
    dsimp only
    split
    · exact base_modeComplete b
    · exact b
  | .write _ .drainWrite, .ok _ => exact base_drainDone b

/-- What no result changes: EN, the arbiter, the stop that waits, and the sequencer's place in the
turn. -/
def standing (s : State) : Bool × Arb × Option StopReason × Option Txn × Seq × TurnUnit :=
  (s.en, s.arb, s.stopPending, s.txn, s.seq, s.unit)

theorem standing_applyResult (op : TxnOp) (r : Except Ferr (List U16)) (s : State) :
    standing (applyResult op r s) = standing s := by
  match op, r with
  | .read _ .modeRead, .ok _ | .read _ .modeRead, .error _ | .read _ (.partRead _ _), .error _
  | .write _ .modeWrite, .error _ | .write _ .drainWrite, .error _ => rfl
  | .read _ (.partRead p base), .ok vals =>
    show standing (partDone p base vals s) = standing s
    rw [partDone_frame]
    rfl
  | .write _ .modeWrite, .ok _ =>
    obtain ⟨irq, slots0, slots1, completed⟩ := modeComplete_frame s
    unfold applyResult
    dsimp only
    split
    · rw [completed]
      rfl
    · rfl
  | .write _ .drainWrite, .ok _ =>
    show standing (drainDone s) = standing s
    rw [drainDone_eq]
    rfl

theorem standing_resultState (op : TxnOp) (r : Except Ferr (List U16)) (s : State) :
    standing (resultState op r s) = standing { s with txn := none } := by
  rw [resultState, standing_applyResult]
  cases op <;> rfl

/-- Only a partition read's result reaches the value memory and the discard (R683). -/
theorem applyResult_vr_txnDiscard {op : TxnOp}
    (other : ∀ c p base, op ≠ .read c (.partRead p base)) (r : Except Ferr (List U16)) (s : State) :
    (applyResult op r s).vr = s.vr ∧ (applyResult op r s).txnDiscard = s.txnDiscard := by
  match op, r with
  | .read c (.partRead p base), _ => exact absurd rfl (other c p base)
  | .read _ .modeRead, .ok _ | .read _ .modeRead, .error _ | .write _ .modeWrite, .error _
  | .write _ .drainWrite, .error _ => exact ⟨rfl, rfl⟩
  | .write _ .modeWrite, .ok _ =>
    obtain ⟨irq, slots0, slots1, completed⟩ := modeComplete_frame s
    unfold applyResult
    dsimp only
    split
    · rw [completed]
      exact ⟨rfl, rfl⟩
    · exact ⟨rfl, rfl⟩
  | .write _ .drainWrite, .ok _ =>
    show (drainDone s).vr = s.vr ∧ (drainDone s).txnDiscard = s.txnDiscard
    rw [drainDone_eq]
    exact ⟨rfl, rfl⟩

/-- Only a partition read can be one to discard, and its result ends the discard (R683, R690). -/
theorem txnDiscard_resultState {op : TxnOp} (r : Except Ferr (List U16))
    (discard : s.txnDiscard = true → ∃ c p base, op = .read c (.partRead p base)) :
    (resultState op r s).txnDiscard = false := by
  by_cases part : ∃ c p base, op = .read c (.partRead p base)
  · obtain ⟨c, p, base, rfl⟩ := part
    cases r <;> rfl
  · have noted : ∀ u, (noteAttempt op u).txnDiscard = u.txnDiscard := fun u => by cases op <;> rfl
    obtain ⟨-, kept⟩ := applyResult_vr_txnDiscard (fun c p base h => part ⟨c, p, base, h⟩) r
      (noteAttempt op (recorded (codeOf r) { s with txn := none }))
    rw [resultState, kept, noted]
    exact Bool.of_not_eq_true fun set => part (discard set)

/-! ## The end of a transaction -/

/-- A transaction in its answer window, with no answer open any longer (R605, R606). -/
structure InWindow (x : Txn) (s : State) : Prop extends Base s where
  wait : s.seq = .wait
  txn : s.txn = some x
  master : s.arb = .master
  enable : s.en = false → s.stopPending.isSome = true
  discard : s.txnDiscard = true → ∃ c p base, x.op = .read c (.partRead p base)
  position : positionInv s x.op x.start

/-- The values of an answer are as many as were asked for. -/
def Fits (x : Txn) (r : Except Ferr (List U16)) : Prop :=
  ∀ c p vals, x.op = .read c p → r = .ok vals → vals.length ≤ c.toNat

variable {x : Txn} {r : Except Ferr (List U16)}

theorem base_resultState (w : InWindow x s) (fits : Fits x r) : Base (resultState x.op r s) := by
  have ended : Base { s with txn := none } :=
    w.toBase.of_view { w.memory with } { w.range with } rfl
  refine base_applyResult (base_noteAttempt (base_recorded ended _) _) ?_
  intro c p base vals op ok
  have place := w.position
  rw [op] at place
  obtain ⟨-, -, -, -, within, -, -⟩ := place
  have asked := fits c _ vals op ok
  exact Nat.le_trans (Nat.add_le_add_left asked _) within

theorem ready_resultState (w : InWindow x s) (fits : Fits x r) (free : s.stopPending = none) :
    Ready (resultState x.op r s) := by
  have stands := standing_resultState x.op r s
  simp only [standing, Prod.mk.injEq] at stands
  obtain ⟨en, arb, stop, txn, -, -⟩ := stands
  have enabled : s.en = true := by
    rw [← Bool.not_eq_false]
    exact fun off => absurd (w.enable off) (by simp [free])
  refine { base_resultState w fits with control := ?_ }
  rw [turnControl, en, arb, stop, txn, txnDiscard_resultState r w.discard, enabled, w.master, free]

theorem turnPlace_resultState {op : TxnOp} {start : U16} (place : positionInv s op start)
    (r : Except Ferr (List U16)) : TurnPlace (resultState op r s) op r := by
  match op, r with
  | .read _ .modeRead, .ok _ =>
    obtain ⟨unit, -⟩ := place
    exact ⟨unit, rfl⟩
  | .read _ .modeRead, .error _ | .read _ (.partRead _ _), .ok _ | .read _ (.partRead _ _), .error _
  | .write _ .modeWrite, .error _ | .write _ .drainWrite, .error _ => exact trivial
  | .write vals .modeWrite, .ok vs =>
    obtain ⟨unit, v, -, step⟩ := place
    have kept : TurnPlace (acknowledged s) (.write vals .modeWrite) (.ok vs) :=
      ⟨unit, Option.isSome_iff_exists.2 ⟨_, step⟩⟩
    obtain ⟨irq, slots0, slots1, completed⟩ := modeComplete_frame (acknowledged s)
    rw [resultState_write_ok]
    by_cases last : s.step = lastStep s.run
    · rw [applyResult_modeWrite_of_last (s := acknowledged s) _ _ last, completed]
      exact kept
    · rw [applyResult_modeWrite_of_more (s := acknowledged s) _ _ last]
      exact kept
  | .write vals .drainWrite, .ok vs =>
    obtain ⟨unit, step, -⟩ := place
    have drained :
        resultState (.write vals .drainWrite) (.ok vs) s = drainDone (acknowledged s) := rfl
    rw [drained, drainDone_eq]
    exact ⟨unit, step⟩

/-- R607: the stop that waits is performed, or the turn goes on. -/
theorem inv_txnEnd (w : InWindow x s) (fits : Fits x r) : Inv (txnEnd r s) := by
  cases pending : s.stopPending with
  | none =>
    rw [txnEnd_of_free w.txn pending]
    exact inv_continueTurn _ _ (ready_resultState w fits pending)
      (turnPlace_resultState w.position r)
  | some why =>
    rw [txnEnd_of_stop w.txn pending]
    refine inv_doStop (base_resultState w fits) (fun notTurn => ?_) why
    obtain ⟨seq, -⟩ := stopBase_resultState x.op r s
    simp [inTurn, seq, w.wait] at notTurn

/-- In the answer window the invariant is that of the transaction, once no answer is open. -/
theorem inWindow_of_inv (inv : Inv s) (wait : s.seq = .wait) (hx : s.txn = some x) {r : Receiver}
    (frame : FrameInv r) (owner : r.inFrame = true → r.owner ≠ .answer) :
    InWindow x { s with rx := r } where
  memory := { inv.memory with }
  range := { inv.range with }
  frame := frame
  owner := owner
  de := by
    rw [← Bool.not_eq_true, inv.transaction.de, wait]
    decide
  bits := inv.transaction.idle (by simp [wait])
  cycle := inv.arbiter.cycle
  wait := wait
  txn := hx
  master := inv.arbiter.master.2 (by simp [wait])
  enable := fun off => (inv.arbiter.enable off).resolve_left (by
    rw [inv.arbiter.master.2 (by simp [wait])]
    decide)
  discard := fun set => by
    have inFlight := inv.transaction.discard set
    obtain ⟨a, st, op⟩ := x
    match op with
    | .read c (.partRead p base) => exact ⟨c, p, base, rfl⟩
    | .read _ .modeRead | .write _ _ => simp [partReadInFlight, hx] at inFlight
  position := inv.transaction.position x hx

end Sys2Proof.Proofs.ResultInvariant
end

section
/-! PROOFS. Time and the line keep the invariant (43_line_and_arbiter.md R552–R561, R572,
44_transactions.md R602–R606, 45_turn_sequencer.md R652, R668): each `tick_ms` and `tick_bit`, and
each character heard. -/

namespace Sys2Proof.Proofs.LineInvariant

open Sys2Proof Sys2Proof.Machine Sys2Proof.Proofs.Invariant Sys2Proof.Proofs.TurnInvariant
open Sys2Proof.Proofs.ResultInvariant Sys2Proof.Proofs.ReceivedCharacters
open Sys2Proof.Proofs.ArbiterEvents (countMs_eq quiescent offTick_of_quiescent
  offTick_of_not_quiescent lineIdle_iff)
open Sys2Proof.Proofs.AnswerWindow (frameResult deliverFrame_of_answer)
open Sys2Proof.Proofs.WireFrames (parseAnswer_ok frameEnd_eq)
open Sys2Proof.Proofs.FrameDelivery (deliverFrame_of_snoop deliverFrame_of_discard snoopReport_eq
  receiveTick_of_no_gap receiveTick_of_gap)
open Sys2Proof.Proofs.WriteQueue (countBit_eq transmitTick_of_ne_tx)
open Sys2Proof.Proofs.Transmission (transmitTick_of_tx)

variable {s : State}

/-! ## `tick_ms` -/

theorem satInc_le (n : Nat) : satInc n ≤ Config.timerMax := Nat.min_le_right _ _

theorem inv_countMs (inv : Inv s) : Inv (countMs s) := by
  rw [countMs_eq]
  refine inv_of_spoken inv { inv.memory with } { inv.range with
    quiet := satInc_le _, since := satInc_le _, drain := ?_ } rfl
  dsimp only
  split
  · exact satInc_le _
  · exact inv.range.drain

/-- In a window of a turn the turn can go on (R575, R653). -/
theorem ready_of_inv (inv : Inv s) (window : s.seq = .listen ∨ s.seq = .pause) : Ready s := by
  have notTx : s.seq ≠ .tx := by rcases window with h | h <;> simp [h]
  have notWait : s.seq ≠ .wait := by rcases window with h | h <;> simp [h]
  have master : s.arb = .master := inv.arbiter.master.2 (by rcases window with h | h <;> simp [h])
  obtain ⟨txn, discard, stop⟩ := nothing_in_flight inv (.inr window)
  have en : s.en = true := by
    rw [← Bool.not_eq_false]
    exact fun off => by simpa [master, stop] using inv.arbiter.enable off
  exact
    { base_of_inv inv notTx notWait with
      control := by simp [turnControl, en, master, stop, discard, txn] }

/-- After the quiescence window a turn starts in MASTER (R572). -/
theorem inv_offTick (inv : Inv s) (off : s.seq = .off) : Inv (offTick s) := by
  by_cases quiet : quiescent s
  · rw [offTick_of_quiescent quiet]
    obtain ⟨en, -⟩ := quiet
    obtain ⟨txn, discard, stop⟩ := nothing_in_flight inv (.inl off)
    have b := (base_of_inv inv (by simp [off]) (by simp [off])).setArb .master
    exact inv_advance _ { b with control := by simp [turnControl, en, stop, discard, txn] }
  · rwa [offTick_of_not_quiescent quiet]

theorem inv_listenTick (inv : Inv s) (listening : s.seq = .listen) : Inv (listenTick s) := by
  have counted : Inv { s with listenMs := satInc s.listenMs } :=
    inv_of_spoken inv { inv.memory with } { inv.range with listen := satInc_le _ } rfl
  unfold listenTick
  rw [settleNat_eq]
  dsimp only
  split
  · exact inv_advance _ (ready_of_inv counted (.inl listening))
  · exact counted

/-- A partition read in its guard is in flight in TX and WAIT too (R690). -/
theorem partReadInFlight_of_inTxn {t : State} (h : partReadInFlight s = true) (same : t.txn = s.txn)
    (inTxn : inTxn t = true) : partReadInFlight t = true := by
  unfold partReadInFlight at h ⊢
  rw [same]
  split at h
  · simp [inTxn]
  · cases h

/-- A request goes on a line that is at rest, and has at least one byte (R560, R602). -/
theorem inv_txStart (inv : Inv s) (guarding : s.seq = .guard) (active : s.rx.active = false)
    (closed : s.rx.inFrame = false) : Inv (txStart s) := by
  obtain ⟨x, hx⟩ := Option.isSome_iff_exists.1 (inv.transaction.present.2 (.inl guarding))
  have nonempty : 1 ≤ s.tx.buf.length := by
    rw [inv.transaction.request x hx, requestOf]
    split
    · simp
    · simp; omega
  have bits : 1 ≤ 10 * s.tx.buf.length := by omega
  have master : s.arb = .master := inv.arbiter.master.2 (by simp [guarding])
  refine ⟨{ inv.memory with }, { inv.range with }, { inv.receiver with answer := ?_ },
    { inv.transaction with
      de := ⟨fun _ => rfl, fun _ => rfl⟩
      present := ?_
      sending := fun _ => ⟨bits, Nat.le_refl _, active, closed⟩
      idle := fun notTx => absurd rfl notTx
      discard := fun set => ?_ },
    { inv.arbiter with
      master := iff_of_true master nofun, rest := nofun, pause := nofun, stop := fun _ => rfl }⟩
  · exact fun opened => absurd (closed.symm.trans opened) (by decide)
  · exact iff_of_true (inv.transaction.present.2 (.inl guarding)) (.inr (.inl rfl))
  · exact partReadInFlight_of_inTxn (inv.transaction.discard set) rfl rfl

theorem inv_guardTick (inv : Inv s) (guarding : s.seq = .guard) : Inv (guardTick s) := by
  unfold guardTick
  split
  · rename_i idle
    obtain ⟨-, active, closed⟩ := (lineIdle_iff s).1 idle
    exact inv_txStart inv guarding active closed
  · exact inv

theorem fits_error (x : Txn) (e : Ferr) : Fits x (.error e) := fun _ _ _ _ h => nomatch h

/-- An answer still open at the timeout is discarded (R606). -/
theorem inv_waitTick (inv : Inv s) (waiting : s.seq = .wait) : Inv (waitTick s) := by
  have counted : Inv { s with txnMs := satInc s.txnMs } :=
    inv_of_spoken inv { inv.memory with } { inv.range with txn := satInc_le _ } rfl
  obtain ⟨x, hx⟩ := Option.isSome_iff_exists.1 (inv.transaction.present.2 (.inr (.inr waiting)))
  have frame := frameInv_of_inv inv
  unfold waitTick
  rw [settleNat_eq]
  dsimp only
  split
  · split
    · rename_i answering
      have opened : s.rx.inFrame = true := (Bool.and_eq_true_iff.1 answering).1
      exact inv_txnEnd (inWindow_of_inv counted waiting hx (r := { s.rx with owner := .discard })
        { frame with closed := fun closed => absurd (closed.symm.trans opened) (by decide) } nofun)
        (fits_error x _)
    · rename_i noAnswer
      refine inv_txnEnd (inWindow_of_inv counted waiting hx (r := s.rx) frame fun opened own => ?_)
        (fits_error x _)
      exact noAnswer (by simp [opened, own])
  · exact counted

theorem inv_pauseTick (inv : Inv s) (pausing : s.seq = .pause) : Inv (pauseTick s) := by
  have counted : Inv { s with pauseMs := satInc s.pauseMs } :=
    inv_of_spoken inv { inv.memory with } { inv.range with pause := satInc_le _ } rfl
  obtain ⟨unit, pause⟩ := inv.arbiter.pause pausing
  unfold pauseTick
  rw [settleNat_eq]
  dsimp only
  split
  · have r := ready_of_inv counted (.inr pausing)
    exact inv_runStep (r.of_view { r.memory with } { r.range with } rfl rfl) unit
      (program_next _ _ (by rw [pause]; rfl) (program_pause _ _ pause))
  · exact counted

theorem inv_tickMs (inv : Inv s) : Inv (tickMs s) := by
  have counted := inv_countMs inv
  have seq : (countMs s).seq = s.seq := by rw [countMs_eq]
  unfold tickMs
  split <;> rename_i h <;> rw [h] at seq
  · exact inv_offTick counted seq
  · exact inv_listenTick counted seq
  · exact inv_guardTick counted seq
  · exact counted
  · exact inv_waitTick counted seq
  · exact inv_pauseTick counted seq

/-! ## `tick_bit` -/

/-- The answer window opens with no frame open (R559, R604). -/
theorem inv_openWindow (inv : Inv s) (sending : s.seq = .tx) : Inv (openWindow s) := by
  obtain ⟨-, -, -, closed⟩ := inv.transaction.sending sending
  have master : s.arb = .master := inv.arbiter.master.2 (by simp [sending])
  refine ⟨{ inv.memory with }, { inv.range with txn := Nat.zero_le _ },
    { inv.receiver with answer := fun opened => ?_ },
    { inv.transaction with
      de := iff_of_false nofun nofun
      present := ?_
      sending := nofun
      idle := fun _ => rfl
      discard := fun set => ?_ },
    { inv.arbiter with
      master := iff_of_true master nofun, rest := nofun, pause := nofun, stop := fun _ => rfl }⟩
  · exact absurd (closed.symm.trans opened) (by decide)
  · exact iff_of_true (inv.transaction.present.2 (.inr (.inl sending))) (.inr (.inr rfl))
  · exact partReadInFlight_of_inTxn (inv.transaction.discard set) rfl rfl

theorem inv_countdown (inv : Inv s) (sending : s.seq = .tx) (more : s.tx.bits - 1 ≠ 0) :
    Inv { s with tx.bits := s.tx.bits - 1 } := by
  obtain ⟨-, upper, silent⟩ := inv.transaction.sending sending
  exact ⟨{ inv.memory with }, { inv.range with }, { inv.receiver with },
    { inv.transaction with
      sending := fun _ =>
        ⟨Nat.one_le_iff_ne_zero.2 more, Nat.le_trans (Nat.sub_le _ _) upper, silent⟩
      idle := fun notTx => absurd sending notTx },
    { inv.arbiter with }⟩

theorem inv_transmitTick (inv : Inv s) : Inv (transmitTick s) := by
  by_cases sending : s.seq = .tx
  · rw [transmitTick_of_tx sending]
    split
    · exact inv_openWindow inv sending
    · rename_i more
      have counted := inv_countdown inv sending more
      split
      · exact inv_of_spoken counted { counted.memory with } { counted.range with } rfl
      · exact counted
  · rwa [transmitTick_of_ne_tx sending]

theorem inv_snoopReport (inv : Inv s) (code : Ferr) : Inv (snoopReport code s) := by
  cases code with
  | ok => exact inv_raiseIrq inv (by decide)
  | piBcount => exact inv
  | _ =>
    refine inv_raiseIrq (f := .snoopErr) ?_ (by decide)
    exact inv_of_spoken inv { inv.memory with } { inv.range with } rfl

/-- SNOOP_BUF takes at most 256 bytes (R138, R558). -/
theorem inv_snoopFrame (inv : Inv s) (n : Nat) (f : List Byte) (fe : Bool) :
    Inv (snoopFrame n f fe s) := by
  obtain ⟨canonical, below⟩ := inv.memory.snoop
  have fits : 0 + (f.take 256).length ≤ 256 := by
    rw [Nat.zero_add]
    exact List.length_take_le 256 f
  refine inv_snoopReport ?_ _
  exact inv_of_spoken inv
    { inv.memory with
      snoop := ⟨memWriteAll_wf _ _ _ canonical, memWriteAll_below _ _ _ below fits⟩ }
    { inv.range with } rfl

theorem inv_idle (inv : Inv s) : Inv { s with rx := s.rx.idle } :=
  inv_set_rx inv (frameInv_idle s.rx) nofun fun sending => by
    obtain ⟨-, -, silent, -⟩ := inv.transaction.sending sending
    exact ⟨silent, rfl⟩

/-- A parsed answer has as many values as the read asked for (R510). -/
theorem fits_frameResult (n : Nat) (f : List Byte) (x : Txn) (s : State) :
    Fits x (frameResult n f x s) := by
  rintro c p vals op ok
  obtain ⟨a, st, _⟩ := x
  cases op
  unfold frameResult at ok
  split at ok
  · cases ok
  · obtain ⟨-, -, -, -, rfl⟩ := parseAnswer_ok ok
    exact valuesOf_length_le _ _

theorem inv_deliverFrame (inv : Inv s) (opened : s.rx.inFrame = true) (n : Nat) (f : List Byte) :
    Inv (deliverFrame n f s) := by
  cases own : s.rx.owner with
  | snoop =>
    rw [deliverFrame_of_snoop own]
    exact inv_snoopFrame (inv_idle inv) _ _ _
  | discard =>
    rw [deliverFrame_of_discard own]
    exact inv_idle inv
  | answer =>
    have waiting : s.seq = .wait := (inv.receiver.answer opened).1 own
    obtain ⟨x, hx⟩ := Option.isSome_iff_exists.1 (inv.transaction.present.2 (.inr (.inr waiting)))
    rw [deliverFrame_of_answer own hx]
    exact inv_txnEnd (inWindow_of_inv inv waiting hx (frameInv_idle s.rx) nofun)
      (fits_frameResult n f x s)

theorem inv_receiveTick {t : State} (inv : Inv s) (h : receiveTick exec s = .next t) : Inv t := by
  by_cases noGap : s.rx.inFrame = false ∨ s.rx.active = true
  · cases (receiveTick_of_no_gap noGap).symm.trans h
    exact inv
  · obtain ⟨opened, silent⟩ : s.rx.inFrame = true ∧ s.rx.active = false := by simpa using noGap
    have frame := frameInv_of_inv inv
    have counted : Inv { s with rx.gap := min (s.rx.gap + 1) 255 } :=
      inv_set_rx inv (r := { s.rx with gap := min (s.rx.gap + 1) 255 })
        { frame with
          gap := Nat.min_le_right _ _
          closed := fun closed => absurd (closed.symm.trans opened) (by decide) }
        inv.receiver.answer fun sending => by
          obtain ⟨-, -, atRest⟩ := inv.transaction.sending sending
          exact atRest
    rw [receiveTick_of_gap opened silent] at h
    dsimp only at h
    split at h
    · rw [frameEnd_eq counted.receiver.stored] at h
      cases h
      exact inv_deliverFrame counted opened _ _
    · cases h
      exact counted

theorem inv_tickBit {t : State} (inv : Inv s) (h : tickBit exec s = .next t) : Inv t := by
  have counted : Inv (countBit s) := by
    rw [countBit_eq]
    exact inv_of_spoken inv { inv.memory with } { inv.range with } rfl
  exact inv_receiveTick (inv_transmitTick counted) h

/-! ## Characters -/

/-- Foreign activity in a guard or a pause drops the turn, in which EN = 1 (R552, R603). -/
theorem inv_activity (inv : Inv s) (watched : watching s = true) : Inv (abortTurn .activity s) := by
  have waits := (watching_iff s).1 watched
  have notTx : s.seq ≠ .tx := by rcases waits with h | h <;> simp [h]
  have notWait : s.seq ≠ .wait := by rcases waits with h | h <;> simp [h]
  have master : s.arb = .master := inv.arbiter.master.2 (by rcases waits with h | h <;> simp [h])
  have stop : s.stopPending = none := by
    rw [← Option.not_isSome_iff_eq_none]
    intro waiting
    have busy := inv.arbiter.stop waiting
    rcases waits with h | h <;> simp [inTxn, h] at busy
  exact inv_abortTurn (base_of_inv inv notTx notWait) _ stop fun off => by
    simpa [master, stop] using inv.arbiter.enable off

theorem notTx_of_listening (inv : Inv s) (listening : s.tx.de = false) :
    s.seq ≠ .tx := fun sending =>
  absurd (listening.symm.trans (inv.transaction.de.2 sending)) (by decide)

theorem inv_rxStart (inv : Inv s) : Inv (rxStart s) := by
  cases driving : s.tx.de with
  | true => rwa [rxStart_of_driving driving]
  | false =>
    have notTx := notTx_of_listening inv driving
    have heard : Inv { s with rx.active := true } :=
      inv_set_rx inv (r := { s.rx with active := true }) { frameInv_of_inv inv with }
        inv.receiver.answer fun sending => absurd sending notTx
    unfold rxStart
    simp only [driving, Bool.false_eq_true, if_false]
    split
    · exact inv_activity heard ‹_›
    · exact heard

/-- RXB keeps the first 256 bytes of a frame (R554). -/
theorem frameInv_receiverWithByte (frame : FrameInv s.rx) (b : Byte) (ferr : Bool) :
    FrameInv (receiverWithByte b ferr s) := by
  have stored := frame.stored
  simp only [Config.frameMax] at stored
  refine ⟨?len, Nat.zero_le _, ?stored, fun _ => ?nonempty, nofun⟩
  case len =>
    simp only [receiverWithByte, Config.rxLenMax]
    split <;> omega
  case stored =>
    simp only [receiverWithByte, Config.frameMax]
    split
    · split
      · rw [List.length_append, List.length_singleton]
        omega
      · omega
    · rfl
  case nonempty =>
    simp only [receiverWithByte]
    split <;> omega

/-- A byte joins its frame, whose owner the first byte fixes (R555). -/
theorem inv_withByte (inv : Inv s) (notTx : s.seq ≠ .tx) (b : Byte) (ferr : Bool) :
    Inv (withByte b ferr s) := by
  have quiet : Inv { s with
      quietMs := 0, ansSeen := s.ansSeen || (!s.rx.inFrame && s.seq == .wait) } :=
    inv_of_spoken inv { inv.memory with } { inv.range with quiet := Nat.zero_le _ } rfl
  refine inv_set_rx quiet (frameInv_receiverWithByte (frameInv_of_inv inv) b ferr) (fun _ => ?_)
    fun sending => absurd sending notTx
  cases opened : s.rx.inFrame with
  | true => simpa [receiverWithByte, opened] using inv.receiver.answer opened
  | false => by_cases waiting : s.seq = .wait <;> simp [receiverWithByte, opened, waiting]

theorem leaveTurn_off_of_off (off : s.seq = .off) (unit : s.unit = .mode0) (step : s.step = 0) :
    leaveTurn .off s = s := by
  rw [leaveTurn, ← off, ← unit, ← step]

/-- Foreign traffic outside a turn forces SLAVE (R556). -/
theorem inv_observe (inv : Inv s) (outside : s.seq = .off ∨ s.seq = .listen) : Inv (observe s) := by
  have notTx : s.seq ≠ .tx := by rcases outside with h | h <;> simp [h]
  have notWait : s.seq ≠ .wait := by rcases outside with h | h <;> simp [h]
  obtain ⟨txn, discard, stop⟩ := nothing_in_flight inv (outside.imp_right .inl)
  obtain ⟨unit, step⟩ := inv.arbiter.rest outside
  have left : (if s.seq = .listen then leaveTurn .off s else s) = leaveTurn .off s := by
    split
    · rfl
    · rename_i notListen
      exact (leaveTurn_off_of_off (outside.resolve_right notListen) unit step).symm
  have b : Base (leaveTurn .off s) :=
    (base_of_inv inv notTx notWait).of_view { inv.memory with } { inv.range with } rfl
  unfold observe
  rw [left]
  split
  · rename_i forced
    obtain ⟨en, -⟩ := Bool.and_eq_true_iff.1 forced
    refine (b.setArb .slave).inv_off ?_ ?_ ?_ ?_ ?_ ?_ ?_ <;> simp [txn, discard, stop, en]
  · exact inv

/-- Outside a guard and a pause, a frame whose first byte the snoop owns opens outside a turn
(R555). -/
theorem outside_of_snoop {b : Byte} {ferr : Bool} (notTx : s.seq ≠ .tx)
    (unwatched : watching s = false) (closed : s.rx.inFrame = false)
    (own : (withByte b ferr s).rx.owner = .snoop) : s.seq = .off ∨ s.seq = .listen := by
  have notWait : s.seq ≠ .wait := fun waiting => by
    simp [withByte, receiverWithByte, closed, waiting] at own
  cases h : s.seq <;> simp [watching, h] at unwatched notTx notWait ⊢

theorem inv_rxByte (inv : Inv s) (b : Byte) (ferr : Bool) : Inv (rxByte b ferr s) := by
  cases driving : s.tx.de with
  | true => rwa [rxByte_of_driving driving]
  | false =>
    have notTx := notTx_of_listening inv driving
    have joined := inv_withByte inv notTx b ferr
    rw [rxByte_of_listening driving]
    cases watched : watching s with
    | true =>
      have aborted := inv_activity joined watched
      dsimp only
      simp only [if_true]
      split
      · exact inv_observe aborted (.inl (ArbiterView.seq_abortTurn _ _))
      · exact aborted
    | false =>
      dsimp only
      simp only [Bool.false_eq_true, if_false]
      split
      · rename_i first
        simp only [Bool.and_eq_true, Bool.not_eq_true', decide_eq_true_eq] at first
        obtain ⟨closed, own⟩ := first
        exact inv_observe joined (outside_of_snoop (s := s) notTx watched closed own)
      · exact joined

end Sys2Proof.Proofs.LineInvariant
end

section
/-! PROOFS. The host bus keeps the invariant (10_state.md R102–R137, 46_host_commands.md R700–R722),
and so does every step: the statement of that family. -/

namespace Sys2Proof.Proofs.StepInvariant

open Sys2Proof Sys2Proof.Machine Sys2Proof.Proofs.Invariant Sys2Proof.Proofs.ResultInvariant
open Sys2Proof.Proofs.LineInvariant Sys2Proof.Proofs.CtrlWrites
open Sys2Proof.Proofs.WireFrames (parseSlaveRequest_ok parseReadRequest_ok parseWriteRequest_ok
  parseAnswer_ok)
open Sys2Proof.Proofs.WriteQueue (isCommand_of_decodeCommand nextEvent_snd)
open Sys2Proof.Proofs.ArbiterEvents (inv_script)
open Sys2Proof.Proofs.EventOutcomes (irqSet_ackIrq)

variable {s : State}

/-! ## CTRL -/

theorem inv_ctrlEn (inv : Inv s) (b : Bool) : Inv (ctrlEn b s) := by
  unfold ctrlEn
  split
  · exact inv_stopRequest inv b .stop
  · rename_i noStop
    exact ⟨{ inv.memory with }, { inv.range with }, { inv.receiver with },
      { inv.transaction with },
      { inv.arbiter with
        enable := fun off => inv.arbiter.enable (by
          have off : b = false := off
          simpa [off] using noStop) }⟩

theorem inv_ctrlReinit (inv : Inv s) (b : Bool) : Inv (ctrlReinit b s) := by
  cases b with
  | false => exact inv
  | true => exact inv_stopRequest inv s.en .reinit

/-- A partition read in flight is one to discard, so its cycle may end (R690). -/
theorem inv_invalidate (inv : Inv s) : Inv (invalidate s) := by
  refine ⟨{ inv.memory with vr := ⟨rfl, rfl⟩ }, { inv.range with }, { inv.receiver with },
    { inv.transaction with position := fun x hx => ?_, discard := fun set => ?_ },
    { inv.arbiter with cycle := fun _ => rfl }⟩
  · have place := inv.transaction.position x hx
    have txn : s.txn = some x := hx
    have running := inv.transaction.present.1 (by rw [txn]; rfl)
    obtain ⟨a, st, op⟩ := x
    match op with
    | .read _ .modeRead | .write _ .modeWrite | .write _ .drainWrite => exact place
    | .read _ (.partRead _ _) =>
      obtain ⟨unit, step, lower, upper, fits, -, done⟩ := place
      have inFlight : partReadInFlight s = true := by
        rcases running with h | h | h <;> simp [partReadInFlight, txn, inTxn, h]
      exact ⟨unit, step, lower, upper, fits, .inr (by simp [invalidate, inFlight]), done⟩
  · rcases Bool.or_eq_true_iff.1 set with before | now
    · exact inv.transaction.discard before
    · exact now

theorem inv_writeCtrl (inv : Inv s) (v : Word) : Inv (writeCtrl v s) := by
  rw [writeCtrl_eq]
  have restarted := inv_ctrlReinit (inv_ctrlEn inv (v.getLsbD 0)) (v.getLsbD 1)
  have invalidated : Inv (ctrlInvalidate (v.getLsbD 2)
      (ctrlReinit (v.getLsbD 1) (ctrlEn (v.getLsbD 0) s))) := by
    unfold ctrlInvalidate
    split
    · exact inv_invalidate restarted
    · exact restarted
  unfold ctrlRefresh
  split
  · exact inv_of_spoken invalidated { invalidated.memory with } { invalidated.range with } rfl
  · exact invalidated

/-! ## The other registers -/

theorem inv_ackIrq (inv : Inv s) (v : Word) : Inv (ackIrq v s) :=
  inv_set_irqStatus inv fun set => by
    have kept : irqSet .cycleDone (ackIrq v s) = true := set
    rw [irqSet_ackIrq, Bool.and_eq_true] at kept
    exact kept.1

/-- Another host unit, with HBUF, HVAL and HLEN in bounds. -/
theorem inv_set_host (inv : Inv s) {h : HostPort}
    (hbuf : Memory.wf h.hbuf = true ∧ memBelow 256 h.hbuf = true)
    (hval : Memory.wf h.hval = true ∧ memBelow 128 h.hval = true) (hlen : h.hlen.toNat ≤ 256) :
    Inv { s with host := h } :=
  inv_of_spoken inv { inv.memory with hbuf := hbuf, hval := hval }
    { inv.range with hlen := hlen } rfl

/-- A word of HBUF or HVAL lies inside its memory. -/
def insideMemory : HostReg → Bool
  | .hbuf i => decide (i < 256)
  | .hval i => decide (i < 128)
  | _ => true

/-- The address map selects no word beyond a memory's end (R210). -/
theorem insideMemory_of_mappedAt {w : Nat} {r : HostReg} (h : mappedAt w = some r) :
    insideMemory r = true := by
  unfold mappedAt at h
  split at h
  · rename_i single
    have rows : ∀ w < 0x098, (registerMap.lookup w).all insideMemory = true := by
      decide +kernel
    simpa [h] using rows w single
  · split_ifs at h <;> cases h <;> simp only [insideMemory, decide_eq_true_eq]
    · omega
    · omega

theorem inv_writeReg (inv : Inv s) {a : BitVec 14} {r : HostReg} (mapped : hostReg a = some r)
    (v : Word) : Inv (writeReg r v s) := by
  have inside := insideMemory_of_mappedAt mapped
  cases r with
  | ctrl => exact inv_writeCtrl inv v
  | irqStatus => exact inv_ackIrq inv v
  | hbuf i =>
    obtain ⟨canonical, below⟩ := inv.memory.hbuf
    exact inv_set_host inv ⟨memWrite_wf _ _ _ canonical, memWrite_below _ _ _ below
      (of_decide_eq_true inside)⟩ inv.memory.hval inv.range.hlen
  | hval i =>
    obtain ⟨canonical, below⟩ := inv.memory.hval
    exact inv_set_host inv inv.memory.hbuf ⟨memWrite_wf _ _ _ canonical, memWrite_below _ _ _ below
      (of_decide_eq_true inside)⟩ inv.range.hlen
  | hlen =>
    refine inv_set_host inv inv.memory.hbuf inv.memory.hval ?_
    dsimp only
    unfold legalHlen
    split
    · decide
    · rename_i legal
      exact Nat.not_lt.1 legal
  | cyclePeriod =>
    refine inv_of_spoken inv { inv.memory with } { inv.range with period := ?_ } rfl
    dsimp only [writeReg]
    unfold legalPeriod
    split
    · decide
    · rename_i legal
      exact Nat.not_lt.1 legal
  | tGap =>
    refine inv_of_spoken inv { inv.memory with } { inv.range with gap := ?_ } rfl
    dsimp only [writeReg]
    unfold legalGap
    split
    · decide
    · rename_i legal
      exact Nat.one_le_iff_ne_zero.2 fun zero => legal (BitVec.eq_of_toNat_eq zero)
  | _ => exact inv_of_spoken inv { inv.memory with } { inv.range with } rfl

/-! ## Commands -/

theorem inv_finish (inv : Inv s) (c : Cerr) : Inv (finish c s) := by
  have coded : Inv { s with host.cerr := c } :=
    inv_set_host inv inv.memory.hbuf inv.memory.hval inv.range.hlen
  unfold finish
  dsimp only
  split
  · exact coded
  · exact inv_raiseIrq coded (by decide)

theorem inv_beginCommand (inv : Inv s) : Inv (beginCommand s) :=
  inv_set_host inv inv.memory.hbuf inv.memory.hval inv.range.hlen

theorem inv_putFrame (inv : Inv s) {fr : List Byte} (fits : fr.length ≤ 256) :
    Inv (putFrame fr s) := by
  obtain ⟨canonical, below⟩ := inv.memory.hbuf
  refine inv_set_host inv ⟨memWriteAll_wf _ _ _ canonical, memWriteAll_below _ _ _ below (by omega)⟩
    inv.memory.hval ?_
  exact Nat.le_trans (BitVec.toNat_ofNat .. ▸ Nat.mod_le _ _) fits

theorem inv_putValues (inv : Inv s) {vs : List U16} (fits : vs.length ≤ 128) :
    Inv (putValues vs s) := by
  obtain ⟨canonical, below⟩ := inv.memory.hval
  exact inv_set_host inv inv.memory.hbuf
    ⟨memWriteAll_wf _ _ _ canonical, memWriteAll_below _ _ _ below (by omega)⟩ inv.range.hlen

/-- A request accepted writes no more values than its byte count can tell (R505). -/
theorem writeIntent_length {n : Nat} {f : List Byte} {a : Byte} {st : U16} {vs : List U16}
    (h : parseSlaveRequest n f = .ok (.writeIntent a st vs)) : vs.length ≤ 128 := by
  obtain ⟨-, ⟨-, read⟩ | ⟨-, write⟩⟩ := parseSlaveRequest_ok h
  · obtain ⟨-, no⟩ := parseReadRequest_ok read
    cases no
  · obtain ⟨cnt, -, bytes, -, -, values⟩ := parseWriteRequest_ok write
    cases values
    have := (byteAt f 6).isLt
    exact Nat.le_trans (valuesOf_length_le _ _) (by omega)

theorem inv_reportRequest (inv : Inv s) (n : Nat) (f : List Byte) :
    Inv (reportRequest (parseSlaveRequest n f) s) := by
  have reported : ∀ e p, Inv { s with host.ferr := e, host.pres := p } := fun _ _ =>
    inv_set_host inv inv.memory.hbuf inv.memory.hval inv.range.hlen
  cases parsed : parseSlaveRequest n f with
  | error e => exact reported _ _
  | ok q =>
    cases q with
    | readIntent a st c => exact reported _ _
    | writeIntent a st vs => exact inv_putValues (reported _ _) (writeIntent_length parsed)

theorem inv_reportAnswer (inv : Inv s) (l : BitVec 9) (n : Nat) (f : List Byte) (a fn : Byte)
    (c : Nat) : Inv (reportAnswer l (parseAnswer n f a fn c) s) := by
  have reported : ∀ e p, Inv { s with host.ferr := e, host.pres := p } := fun _ _ =>
    inv_set_host inv inv.memory.hbuf inv.memory.hval inv.range.hlen
  cases parsed : parseAnswer n f a fn c with
  | error e => exact reported _ _
  | ok vs =>
    obtain ⟨-, bytes, -, -, rfl⟩ := parseAnswer_ok parsed
    have := (byteAt f 2).isLt
    exact inv_putValues (reported _ _) (Nat.le_trans (valuesOf_length_le _ _) (by omega))

/-- An entry appended leaves the head of the queue, which a drain write may be sending (R677,
R721). -/
theorem inv_push (inv : Inv s) {e : WqEntry} (vals : 1 ≤ e.vals.length ∧ e.vals.length ≤ 123)
    (room : s.wq.length ≠ 8) : Inv { s with wq := s.wq ++ [e] } := by
  have length := inv.range.wqLength
  simp only [Config.wqDepth] at length
  refine ⟨{ inv.memory with }, { inv.range with wqLength := ?_, wqVals := fun x hx => ?_ },
    { inv.receiver with }, { inv.transaction with position := fun x hx => ?_ },
    { inv.arbiter with }⟩
  · rw [List.length_append, List.length_singleton, Config.wqDepth]
    omega
  · rcases List.mem_append.1 hx with old | new
    · exact inv.range.wqVals x old
    · rwa [List.mem_singleton.1 new]
  · have place := inv.transaction.position x hx
    obtain ⟨a, st, op⟩ := x
    match op with
    | .read _ .modeRead | .read _ (.partRead _ _) | .write _ .modeWrite => exact place
    | .write _ .drainWrite =>
      obtain ⟨unit, step, head⟩ := place
      exact ⟨unit, step, by simp [head]⟩

/-- A check that fails leaves the body out. -/
theorem inv_checked {t : State} {p : Prop} [Decidable p] (inv : Inv s) (c : Cerr)
    (body : ¬p → Inv t) : Inv (if p then finish c (beginCommand s) else t) := by
  split
  · exact inv_finish (inv_beginCommand inv) c
  · exact body ‹_›

theorem inv_exec_command {i : Instr} (h : isCommand i = true) {t : State} (inv : Inv s)
    (ht : exec i s = .next t) : Inv t := by
  have begun := inv_beginCommand inv
  have accumulated : ∀ v, Inv { beginCommand s with host.crcAcc := v } := fun _ =>
    inv_set_host inv inv.memory.hbuf inv.memory.hval inv.range.hlen
  cases i with
  | nop => cases ht; exact inv_finish begun _
  | crcInit | crcByte => cases ht; exact inv_finish (accumulated _) _
  | crcBuf l => cases ht; exact inv_checked inv _ fun _ => inv_finish (accumulated _) _
  | bldRead l =>
    cases ht
    exact inv_checked inv _ fun _ => inv_finish (inv_putFrame begun (by simp)) _
  | bldWrite l =>
    cases ht
    refine inv_checked inv _ fun within => inv_finish (inv_putFrame begun ?_) _
    simp only [Config.writeCountMax] at within
    simp
    omega
  | bldAck l =>
    cases ht
    exact inv_checked inv _ fun _ => inv_finish (inv_putFrame begun (by simp)) _
  | prsReq => cases ht; exact inv_finish (inv_reportRequest begun _ _) _
  | prsAns l => cases ht; exact inv_finish (inv_reportAnswer begun _ _ _ _ _ _) _
  | wqPush l =>
    cases ht
    refine inv_checked inv _ fun within => inv_checked inv _ fun room =>
      inv_finish (inv_push begun ?_ room) _
    simp only [Config.writeCountMax] at within
    simp
    omega
  | modeReq z sub code =>
    cases ht
    refine inv_finish ?_ _
    cases z <;> exact inv_of_spoken begun { begun.memory with } { begun.range with } rfl
  | _ => cases h

theorem inv_issueCommand {w : Word} {t : State} (inv : Inv s)
    (h : issueCommand exec w s = .next t) :
    Inv t := by
  have recorded : Inv { s with host.cmd := w } :=
    inv_set_host inv inv.memory.hbuf inv.memory.hval inv.range.hlen
  unfold issueCommand at h
  dsimp only at h
  split at h
  · rename_i i hi
    exact inv_exec_command (isCommand_of_decodeCommand hi) recorded h
  · cases h
    exact inv_finish (inv_beginCommand recorded) _

theorem inv_busWrite {a : BitVec 14} {v : Word} {t : State} (inv : Inv s)
    (h : busWrite exec a v s = .next t) : Inv t := by
  unfold busWrite at h
  split at h
  · cases h; exact inv
  · rename_i r mapped
    split at h
    · exact inv_issueCommand inv h
    · cases h
      exact inv_writeReg inv mapped v

/-! ## The step -/

theorem inv_resetBlock (s : State) : Inv (resetBlock s) :=
  inv_of_spoken invariantHoldsAtReset { invariantHoldsAtReset.memory with }
    { invariantHoldsAtReset.range with } rfl

theorem inv_handle {e : Event} {t : State} (inv : Inv s) (h : handle exec e s = .next t) :
    Inv t := by
  cases e with
  | tickMs => cases h; exact inv_tickMs inv
  | tickBit => exact inv_tickBit inv h
  | rxStart => cases h; exact inv_rxStart inv
  | rxByte b ferr => cases h; exact inv_rxByte inv b ferr
  | busWrite a v => exact inv_busWrite inv h
  | busRead a => cases h; exact inv_of_spoken inv { inv.memory with } { inv.range with } rfl
  | reset => cases h; exact inv_resetBlock s

/-- Settles O60: each event's handler keeps the invariant; the script is no part of it. -/
theorem stepKeepsInvariant : Obligations.StepKeepsInvariant := by
  intro s t inv h
  unfold step at h
  rw [nextEvent_snd] at h
  exact inv_handle (inv_script inv s.script.tail) h

end Sys2Proof.Proofs.StepInvariant
end

section
/-! PROOFS. The value memory while CYCLE_DONE = 1 (70_reset_and_hazards.md R912): no partition read
is in progress then, and nothing but its result, INVALIDATE and reset writes the value memory. -/

namespace Sys2Proof.Proofs.ValueMemory

open Sys2Proof Sys2Proof.Machine Sys2Proof.Proofs.TransactionResult Sys2Proof.Proofs.CtrlWrites
open Sys2Proof.Proofs.ResultInvariant (applyResult_vr_txnDiscard)
open Sys2Proof.Proofs.TurnWork (Work work_advance work_runStep work_continueTurn)
open Sys2Proof.Proofs.ArbiterView (stopRequest_cases)
open Sys2Proof.Proofs.ArbiterEvents (countMs_eq doStop_eq)
open Sys2Proof.Proofs.AnswerWindow (deliverFrame_of_answer)
open Sys2Proof.Proofs.FrameDelivery (deliverFrame_of_snoop deliverFrame_of_discard snoopReport_eq
  receiveTick_of_no_gap receiveTick_of_gap)
open Sys2Proof.Proofs.Transmission (transmitTick_of_tx)
open Sys2Proof.Proofs.ReceivedCharacters (observe_eq)
open Sys2Proof.Proofs.WriteQueue (isCommand_of_decodeCommand nextEvent_snd txnEnd_of_txn_none
  frameEnd_eq_deliverFrame countBit_eq transmitTick_of_ne_tx)
open Sys2Proof.Proofs.HostCommands (exec_command_finishes)

variable {s : State}

/-! ## Operations of a turn -/

theorem abortTurn_vr (reason : AbortReason) (s : State) : (abortTurn reason s).vr = s.vr := by
  rw [abortTurn_eq, setArb_vr]

theorem doStop_vr (why : StopReason) (s : State) : (doStop why s).vr = s.vr := by
  rw [doStop_eq]
  cases why <;> split <;> rfl

theorem stopRequest_vr (why : StopReason) (s : State) : (stopRequest why s).vr = s.vr := by
  rcases stopRequest_cases why s with ⟨-, p, h⟩ | ⟨-, h⟩ <;> rw [h]
  exact doStop_vr why s

theorem turnStart_vr (s : State) : (turnStart s).vr = s.vr := congrArg Work.vr (work_advance _ s)

theorem runStep_vr (s : State) : (runStep s).vr = s.vr := congrArg Work.vr (work_runStep s)

theorem continueTurn_vr (op : TxnOp) (r : Except Ferr (List U16)) (s : State) :
    (continueTurn op r s).vr = s.vr := congrArg Work.vr (work_continueTurn op r s)

/-! ## Results -/

/-- The transaction in progress, if any, is no partition read. -/
def NoPartRead (s : State) : Prop :=
  ∀ x c p base, s.txn = some x → x.op ≠ .read c (.partRead p base)

/-- A partition read is in progress only with CYCLE_DONE = 0 (R680, R681). -/
theorem noPartRead_of_cycleDone (inv : Inv s) (done : irqSet .cycleDone s = true) :
    NoPartRead s := by
  rintro x c p base hx op
  have place := inv.transaction.position x hx
  rw [op] at place
  obtain ⟨-, -, -, -, -, -, notDone⟩ := place
  exact absurd (notDone.symm.trans done) (by decide)

theorem resultState_vr {op : TxnOp} (other : ∀ c p base, op ≠ .read c (.partRead p base))
    (r : Except Ferr (List U16)) (s : State) : (resultState op r s).vr = s.vr := by
  obtain ⟨kept, -⟩ := applyResult_vr_txnDiscard other r
    (noteAttempt op (recorded (codeOf r) { s with txn := none }))
  rw [resultState, kept]
  cases op <;> rfl

theorem txnEnd_vr (other : NoPartRead s) (r : Except Ferr (List U16)) : (txnEnd r s).vr = s.vr := by
  cases hx : s.txn with
  | none => rw [txnEnd_of_txn_none hx]
  | some x =>
    have result := resultState_vr (fun c p base => other x c p base hx) r s
    cases pending : s.stopPending with
    | none => rw [txnEnd_of_free hx pending, continueTurn_vr, result]
    | some why => rw [txnEnd_of_stop hx pending, doStop_vr, result]

/-! ## Ticks -/

theorem waitTick_vr (other : NoPartRead s) : (waitTick s).vr = s.vr := by
  unfold waitTick
  rw [settleNat_eq]
  dsimp only
  split
  · split
    · exact txnEnd_vr (s := { s with txnMs := satInc s.txnMs, rx.owner := .discard }) other _
    · exact txnEnd_vr (s := { s with txnMs := satInc s.txnMs }) other _
  · rfl

theorem offTick_vr (s : State) : (offTick s).vr = s.vr := by
  unfold offTick
  split
  · rw [turnStart_vr, setArb_vr]
  · rfl

theorem listenTick_vr (s : State) : (listenTick s).vr = s.vr := by
  unfold listenTick
  rw [settleNat_eq]
  dsimp only
  split
  · exact turnStart_vr _
  · rfl

theorem guardTick_vr (s : State) : (guardTick s).vr = s.vr := by
  unfold guardTick
  split <;> rfl

theorem pauseTick_vr (s : State) : (pauseTick s).vr = s.vr := by
  unfold pauseTick
  rw [settleNat_eq]
  dsimp only
  split
  · exact runStep_vr _
  · rfl

theorem tickMs_vr (other : NoPartRead s) : (tickMs s).vr = s.vr := by
  have counted : (countMs s).vr = s.vr ∧ NoPartRead (countMs s) := by
    rw [countMs_eq]
    exact ⟨rfl, other⟩
  obtain ⟨vr, other⟩ := counted
  unfold tickMs
  split
  · rw [offTick_vr, vr]
  · rw [listenTick_vr, vr]
  · rw [guardTick_vr, vr]
  · exact vr
  · rw [waitTick_vr other, vr]
  · rw [pauseTick_vr, vr]

theorem deliverFrame_vr (other : NoPartRead s) (n : Nat) (f : List Byte) :
    (deliverFrame n f s).vr = s.vr := by
  cases own : s.rx.owner with
  | snoop => rw [deliverFrame_of_snoop own, snoopFrame, snoopReport_eq]
  | discard => rw [deliverFrame_of_discard own]
  | answer =>
    cases hx : s.txn with
    | none => simp [deliverFrame, own, txnAnswer, closeFrame, hx]
    | some x =>
      rw [deliverFrame_of_answer own hx]
      exact txnEnd_vr (s := closeFrame s) other _

theorem receiveTick_vr {t : State} (other : NoPartRead s) (h : receiveTick exec s = .next t) :
    t.vr = s.vr := by
  by_cases noGap : s.rx.inFrame = false ∨ s.rx.active = true
  · cases (receiveTick_of_no_gap noGap).symm.trans h
    rfl
  · obtain ⟨opened, silent⟩ : s.rx.inFrame = true ∧ s.rx.active = false := by simpa using noGap
    rw [receiveTick_of_gap opened silent] at h
    dsimp only at h
    split at h
    · obtain ⟨n, f, ended⟩ := frameEnd_eq_deliverFrame { s with rx.gap := min (s.rx.gap + 1) 255 }
      cases ended.symm.trans h
      exact deliverFrame_vr (s := { s with rx.gap := min (s.rx.gap + 1) 255 }) other n f
    · cases h
      rfl

/-- The transmitter reaches neither the value memory nor the transaction (R561). -/
theorem transmitTick_vr_txn (s : State) :
    (transmitTick s).vr = s.vr ∧ (transmitTick s).txn = s.txn := by
  by_cases sending : s.seq = .tx
  · rw [transmitTick_of_tx sending]
    split
    · exact ⟨rfl, rfl⟩
    · split <;> exact ⟨rfl, rfl⟩
  · rw [transmitTick_of_ne_tx sending]
    exact ⟨rfl, rfl⟩

theorem tickBit_vr {t : State} (other : NoPartRead s) (h : tickBit exec s = .next t) :
    t.vr = s.vr := by
  rw [tickBit, countBit_eq] at h
  obtain ⟨vr, txn⟩ := transmitTick_vr_txn { s with bitTicks := s.bitTicks + 1 }
  refine (receiveTick_vr (fun x c p base hx => ?_) h).trans vr
  rw [txn] at hx
  exact other x c p base hx

/-! ## Characters -/

theorem rxStart_vr (s : State) : (rxStart s).vr = s.vr := by
  unfold rxStart
  split
  · rfl
  · dsimp only
    split
    · exact abortTurn_vr _ _
    · rfl

theorem rxByte_vr (b : Byte) (ferr : Bool) (s : State) : (rxByte b ferr s).vr = s.vr := by
  have observed : ∀ u, (observe u).vr = u.vr := fun u => by rw [observe_eq]
  have stored : ∀ u, (storeByte b ferr u).vr = u.vr := fun _ => rfl
  have opened : ∀ u, (openFrame u).vr = u.vr := fun _ => rfl
  unfold rxByte
  simp only [apply_ite State.vr, observed, abortTurn_vr, stored, opened, ite_self]

/-! ## Host accesses -/

/-- Of the bits of CTRL only INVALIDATE reaches the value memory (R103, R690). -/
theorem writeCtrl_vr {v : Word} (keep : v.getLsbD 2 = false) (s : State) :
    (writeCtrl v s).vr = s.vr := by
  have en : ∀ b u, (ctrlEn b u).vr = u.vr := fun b u => by
    unfold ctrlEn
    split
    · exact stopRequest_vr .stop _
    · rfl
  have reinit : ∀ b u, (ctrlReinit b u).vr = u.vr := fun b u => by
    cases b with
    | false => rfl
    | true => exact stopRequest_vr .reinit u
  have refresh : ∀ b u, (ctrlRefresh b u).vr = u.vr := fun b u => by cases b <;> rfl
  rw [writeCtrl_eq, keep, refresh, ctrlInvalidate_false, reinit, en]

theorem issueCommand_vr {w : Word} {t : State} (h : issueCommand exec w s = .next t) :
    t.vr = s.vr := by
  unfold issueCommand at h
  dsimp only at h
  split at h
  · rename_i i hi
    obtain ⟨_, ran, c, u, rfl, body⟩ :=
      exec_command_finishes (isCommand_of_decodeCommand hi) { s with host.cmd := w }
    cases ran.symm.trans h
    rw [finish_vr]
    exact (congrArg State.vr body.only :)
  · cases h
    rw [finish_vr]
    rfl

theorem busWrite_vr {a : BitVec 14} {v : Word} {t : State} (h : busWrite exec a v s = .next t) :
    t.vr = s.vr ∨ hostReg a = some .ctrl ∧ v.getLsbD 2 = true := by
  unfold busWrite at h
  split at h
  · cases h; exact .inl rfl
  · rename_i r mapped
    split at h
    · exact .inl (issueCommand_vr h)
    · cases h
      cases r with
      | ctrl =>
        cases invalidates : v.getLsbD 2 with
        | false => exact .inl (writeCtrl_vr invalidates s)
        | true => exact .inr ⟨mapped, rfl⟩
      | _ => exact .inl rfl

/-! ## The step -/

/-- Settles O57: with CYCLE_DONE = 1 the transaction that a tick may end is no partition read. -/
theorem valuesStableWhileCycleDone : Obligations.ValuesStableWhileCycleDone := by
  intro s t inv done h changed
  unfold step at h
  rw [nextEvent_snd] at h
  have other : NoPartRead { s with script := s.script.tail } :=
    (noPartRead_of_cycleDone inv done :)
  generalize (nextEvent s).1 = e at h ⊢
  cases e with
  | tickMs => cases h; exact absurd (tickMs_vr other) changed
  | tickBit => exact absurd (tickBit_vr other h) changed
  | rxStart => cases h; exact absurd (rxStart_vr _) changed
  | rxByte b ferr => cases h; exact absurd (rxByte_vr b ferr _) changed
  | busRead a => cases h; exact absurd rfl changed
  | busWrite a v => exact .inr ⟨a, v, rfl, (busWrite_vr h).resolve_left changed⟩
  | reset => exact .inl rfl

end Sys2Proof.Proofs.ValueMemory
end
